-- ==== Sys2Proof/Word.lean ====
section
/-! DEFINITION. The value types of the MicroUds diagnostic core: its word widths (spec 00_scope.md R6, R9, 10_state.md R31 to R36) and
the byte groups a frame and a command packet are made of (30_encoding.md R80, R91). -/

namespace Sys2Proof

/-- A byte, u8 (R9). -/
abbrev Byte := BitVec 8

/-- Four bits: the type nibble and the kind-specific low nibble of the PCI byte (R80), and a CF's sequence number (R33). -/
abbrev Nibble := BitVec 4

/-- u12: a FirstFrame's total length and the byte counts of a reassembly (R31, R32, R83). -/
abbrev Len12 := BitVec 12

/-- u16: the two-byte operands `total` and `offset` of the command port (R91, R96). -/
abbrev Half := BitVec 16

/-- u32: the tick counter, the timer marks and a handler's opaque parameter (`TICK_WIDTH` and `PARAM_WIDTH` are 32, R6). -/
abbrev Word := BitVec 32

/-- An 8-byte transport unit, `f0` first on the wire (R80). -/
structure Frame where
  f0 : Byte
  f1 : Byte
  f2 : Byte
  f3 : Byte
  f4 : Byte
  f5 : Byte
  f6 : Byte
  f7 : Byte
  deriving DecidableEq, Repr

/-- Seven payload bytes: the payload area of an SF or CF (R82, R84), and the receive buffer (R36). -/
structure Bytes7 where
  b0 : Byte
  b1 : Byte
  b2 : Byte
  b3 : Byte
  b4 : Byte
  b5 : Byte
  b6 : Byte
  deriving DecidableEq, Repr

/-- Six payload bytes: the payload area of an FF (R83). -/
structure Bytes6 where
  b0 : Byte
  b1 : Byte
  b2 : Byte
  b3 : Byte
  b4 : Byte
  b5 : Byte
  deriving DecidableEq, Repr

/-- Five bytes: the reserved bytes `F[3..7]` of an FC (R85). -/
structure Bytes5 where
  b0 : Byte
  b1 : Byte
  b2 : Byte
  b3 : Byte
  b4 : Byte
  deriving DecidableEq, Repr

end Sys2Proof
end

