-- ==== Sys2Proof/Config.lean ====
section
/-! DEFINITION. What an implementation fixes (spec 00_scope.md R6, R7), the constants the source fixes (R8), and the free values:
the transmit capability's answers (93_implementation_defined.md U12) and the values the spec calls unspecified (U6, U7). -/

namespace Sys2Proof

/-- The bit-layout strategy `BIT_ORDER` (R6). It changes no wire byte (20_memory.md R62). -/
inductive BitOrder where
  | msbFirst
  | lsbFirst
  deriving DecidableEq, Repr

/-- The configuration of R6, fixed before a run and never written by a command (R44). `SESSION_TIMEOUT` and `NCS_TIMEOUT` are u32,
the ids, NRCs and handler results are bytes: that part of R7 holds by type. -/
structure Config where
  /-- `BUCKET_COUNT`, OPEN: 0..65535; 0 makes INIT fail (R300). -/
  bucketCount : Nat
  /-- `MAX_SERVICES`, OPEN: 0..256. -/
  maxServices : Nat
  /-- `MAX_SUBFUNCTIONS`, OPEN: 0..255. -/
  maxSubfunctions : Nat
  /-- `SESSION_TIMEOUT` in ticks, OPEN. -/
  sessionTimeout : Word
  /-- `NCS_TIMEOUT` in ticks, OPEN. -/
  ncsTimeout : Word
  /-- `TICK_RATE`: informational, no rule reads it (R6, R390). -/
  tickRate : Nat
  /-- `REASM_CAPACITY` in bytes, 1..4096. -/
  reasmCapacity : Nat
  /-- `KEY_WIDTH` in bits: only 8 is modelled, anything else is refused (R5, 93 U3). -/
  keyWidth : Nat
  /-- `BIT_ORDER`, OPEN: no effect on any byte (R62). -/
  bitOrder : BitOrder
  /-- `TX_PRESENT`, OPEN. -/
  txPresent : Bool
  /-- `DEFAULT_SID`. -/
  defaultSid : Byte
  /-- `DEFAULT_SSID`. -/
  defaultSsid : Byte
  /-- ServiceNotSupported. -/
  nrcSns : Byte
  /-- SubfunctionNotSupported. -/
  nrcSfns : Byte
  /-- ResponseTooLong. -/
  nrcRtl : Byte
  /-- BusyRepeatRequest. -/
  nrcBrr : Byte
  /-- RequestSequenceError. -/
  nrcRse : Byte
  /-- `HR_SUCCESS`, OPEN. -/
  hrSuccess : Byte
  /-- `HR_NO_RESPONSE`, OPEN, different from `HR_SUCCESS`. -/
  hrNoResponse : Byte
  /-- `NCS_RESTART_ON_CF`. -/
  ncsRestartOnCf : Bool
  /-- `FF_LATCHES_SSID`. -/
  ffLatchesSsid : Bool
  deriving DecidableEq, Repr

namespace Config

/-- The identity string of R2. -/
def identity : String := "MicroUds-core/spec-v1"

/-- R7: the well-formed configurations. `BUCKET_COUNT = 0` is one of them. -/
def wf (c : Config) : Bool :=
  decide (c.bucketCount ≤ 65535) && decide (1 ≤ c.reasmCapacity) && decide (c.reasmCapacity ≤ 4096)
    && decide (c.maxServices ≤ 256) && decide (c.maxSubfunctions ≤ 255) && decide (c.keyWidth = 8)
    && decide (c.hrSuccess ≠ c.hrNoResponse)

/-- DESIGN CHOICE (assumption 4), unsafe: the configuration `State.reset` carries. R6's own values where it gives any, and for the OPEN
parameters the values 95_test_vectors.md section 0 uses for testing. No obligation rests on it. -/
def vectors : Config where
  bucketCount := 16
  maxServices := 32
  maxSubfunctions := 8
  sessionTimeout := 5000#32
  ncsTimeout := 1000#32
  tickRate := 1000
  reasmCapacity := 4096
  keyWidth := 8
  bitOrder := .msbFirst
  txPresent := true
  defaultSid := 0x10#8
  defaultSsid := 0x01#8
  nrcSns := 0x11#8
  nrcSfns := 0x12#8
  nrcRtl := 0x14#8
  nrcBrr := 0x21#8
  nrcRse := 0x24#8
  hrSuccess := 0x00#8
  hrNoResponse := 0xFF#8
  ncsRestartOnCf := true
  ffLatchesSsid := false

/-- The registry's hash multiplier, 0x41A7F001 (R8, R160). -/
def hashMultiplier : Nat := 1101524993

/-- FREE VALUE (assumption 6), safe: whether the transmit capability answers `ok` to the attempt numbered by the draw counter, when the
state holds no answer for it (R285, 93 U12). -/
opaque txAnswerOk : Nat → Bool

/-- FREE VALUE (assumption 7), safe: the value an unspecified field holds after DELETE and at power-on (R46, 93 U6, U7), by the number
of the draw and the field's place in it. -/
opaque freeNat : Nat → Nat → Nat

end Config

end Sys2Proof
end

