-- ==== Sys2Proof/Syntax.lean ====
section
/-! DEFINITION. The instructions: one constructor per row of spec/opcode_table.json (30_encoding.md R92 for the commands, R81 for the wire
frame kinds, R94 for the reserved opcodes), and what the host presents to the block (R90, assumption 1). -/

namespace Sys2Proof

/-- One constructor per row of the opcode table. Operands are the assembled values of R96; an operand byte outside the range a command
accepts is reported by the command, not at decode. -/
inductive Instr where
  /-- Wire SingleFrame (R82): length nibble, seven payload bytes. -/
  | frameSf (len : Nibble) (p : Bytes7)
  /-- Wire FirstFrame (R83): 12-bit total length, six payload bytes. -/
  | frameFf (total : Len12) (p : Bytes6)
  /-- Wire ConsecutiveFrame (R84): sequence number, seven payload bytes. -/
  | frameCf (sn : Nibble) (p : Bytes7)
  /-- Wire FlowControl (R85): flow status, block size, separation time, the five reserved bytes as they stand (R88: not checked). -/
  | frameFc (fs : Nibble) (bs st : Byte) (rsv : Bytes5)
  /-- Wire frame of a reserved type nibble 4..7 (R88): type nibble, low nibble, the other seven bytes. -/
  | frameReserved (t lo : Nibble) (rest : Bytes7)
  /-- Wire frame of a reserved type nibble 8..15 (R88). -/
  | frameReservedHi (t lo : Nibble) (rest : Bytes7)
  /-- PACK_SF (R121). -/
  | packSf (len : Byte) (p : Bytes7)
  /-- UNPACK_SF (R122). -/
  | unpackSf (f : Frame)
  /-- PACK_FF (R123). -/
  | packFf (total : Half) (p : Bytes6)
  /-- UNPACK_FF (R124). -/
  | unpackFf (f : Frame)
  /-- PACK_CF (R125). -/
  | packCf (len sn : Byte) (p : Bytes7)
  /-- UNPACK_CF (R126). -/
  | unpackCf (f : Frame)
  /-- PACK_FC (R127): operands in the packet's order. -/
  | packFc (bs st fs : Byte)
  /-- UNPACK_FC (R128). -/
  | unpackFc (f : Frame)
  /-- REGISTER_SERVICE (R167). -/
  | registerService (sid hflag hid : Byte) (param : Word)
  /-- REGISTER_SUBFUNCTION (R168). -/
  | registerSubfunction (sid ssid hflag hid : Byte) (param : Word)
  /-- FIND_SERVICE (R169). -/
  | findService (key : Byte)
  /-- REMOVE_SERVICE (R170). -/
  | removeService (key : Byte)
  /-- INIT (R300). -/
  | init
  /-- DELETE (R302). -/
  | delete
  /-- RECEIVE_FRAME (R205). -/
  | receiveFrame (f : Frame)
  /-- TICK (R240): the operand is ignored by the meaning. -/
  | tick (now : Word)
  /-- DISPATCH (R242). -/
  | dispatch
  /-- HANDLER_RETURN (R252). -/
  | handlerReturn (code : Byte)
  /-- READ_STATE (R303). -/
  | readState
  /-- READ_BUF (R304). -/
  | readBuf (off : Half)
  /-- RESPOND_POSITIVE (R280). -/
  | respondPositive
  /-- RESPOND_NEGATIVE (R281). -/
  | respondNegative (code : Byte)
  /-- Row RESERVED_OPCODE (R94): a command packet whose opcode byte selects no command. -/
  | reservedOpcode (op : Byte)
  deriving DecidableEq, Repr

/-- What the host presents to the block: a command packet on the command port (R90), or an 8-byte unit the frame source delivers, which is
the command RECEIVE_FRAME of that unit (R3, R66; assumption 2). -/
inductive Input where
  | command (packet : List Byte)
  | wire (unit : Frame)
  deriving DecidableEq, Repr

end Sys2Proof
end

