-- ==== Sys2Proof/WellFormed.lean ====
section
/-! DEFINITION. Which terms of `Instr` stand for an encoding: the reserved opcodes are those of spec 30_encoding.md R94, and the two
reserved wire rows split the type nibbles 4..15 as spec/opcode_table.json does. Every other operand is in range by its type. -/

namespace Sys2Proof

/-- R94: the opcodes that select no command. -/
def isReservedOpcode (op : Byte) : Bool :=
  let n := op.toNat
  decide (n = 0x00) || (decide (0x09 ≤ n) && decide (n ≤ 0x0F)) || (decide (0x14 ≤ n) && decide (n ≤ 0x1F))
    || (decide (0x28 ≤ n) && decide (n ≤ 0x2F)) || decide (0x32 ≤ n)

/-- The instruction is the decoding of some encoding. -/
def Instr.wf : Instr → Bool
  | .frameReserved t _ _ => decide (4 ≤ t.toNat) && decide (t.toNat ≤ 7)
  | .frameReservedHi t _ _ => decide (8 ≤ t.toNat)
  | .reservedOpcode op => isReservedOpcode op
  | .frameSf _ _ | .frameFf _ _ | .frameCf _ _ | .frameFc _ _ _ _
  | .packSf _ _ | .unpackSf _ | .packFf _ _ | .unpackFf _ | .packCf _ _ _ | .unpackCf _ | .packFc _ _ _ | .unpackFc _
  | .registerService _ _ _ _ | .registerSubfunction _ _ _ _ _ | .findService _ | .removeService _
  | .init | .delete | .receiveFrame _ | .tick _ | .dispatch | .handlerReturn _ | .readState | .readBuf _
  | .respondPositive | .respondNegative _ => true

end Sys2Proof
end

