-- ==== Sys2Proof/Decode.lean ====
section
/-! DEFINITION. The two encodings of the block (spec 30_encoding.md): the wire frame layouts (R80 to R85) and the command packets (R90 to R96),
as a decoder that is total on any input and rejects by name, and an encoder written from the same tables. -/

namespace Sys2Proof

/-! ### Bit fields and byte order -/

/-- The high nibble of a byte, bits 7..4. -/
def hiNibble (b : Byte) : Nibble := b.extractLsb' 4 4

/-- The low nibble of a byte, bits 3..0. -/
def loNibble (b : Byte) : Nibble := b.extractLsb' 0 4

/-- A big-endian u16 from its two bytes (R63, R96). -/
def be16 (h l : Byte) : Half := h ++ l

/-- A big-endian u32 from its four bytes (R63, R96). -/
def be32 (b3 b2 b1 b0 : Byte) : Word := b3 ++ b2 ++ b1 ++ b0

/-- The two bytes of a u16, most significant first (R63). -/
def bytes16 (v : Half) : List Byte := [v.extractLsb' 8 8, v.extractLsb' 0 8]

/-- The four bytes of a u32, most significant first (R63). -/
def bytes32 (v : Word) : List Byte := [v.extractLsb' 24 8, v.extractLsb' 16 8, v.extractLsb' 8 8, v.extractLsb' 0 8]

/-! ### Byte groups -/

/-- `F[0]` to `F[7]`, in wire order (R61). -/
def Frame.toList (f : Frame) : List Byte := [f.f0, f.f1, f.f2, f.f3, f.f4, f.f5, f.f6, f.f7]

/-- The seven bytes in order. -/
def Bytes7.toList (p : Bytes7) : List Byte := [p.b0, p.b1, p.b2, p.b3, p.b4, p.b5, p.b6]

/-- The six bytes in order. -/
def Bytes6.toList (p : Bytes6) : List Byte := [p.b0, p.b1, p.b2, p.b3, p.b4, p.b5]

/-- Seven zero bytes. -/
def Bytes7.zero : Bytes7 := ⟨0, 0, 0, 0, 0, 0, 0⟩

/-- Five zero bytes. -/
def Bytes5.zero : Bytes5 := ⟨0, 0, 0, 0, 0⟩

/-! ### Wire frames -/

/-- The type nibble `F[0][7:4]` (R80). -/
def Frame.typeNibble (f : Frame) : Nibble := hiNibble f.f0

/-- The kind-specific nibble `F[0][3:0]` (R80). -/
def Frame.kindNibble (f : Frame) : Nibble := loNibble f.f0

/-- `F[1..7]`. -/
def Frame.tail7 (f : Frame) : Bytes7 := ⟨f.f1, f.f2, f.f3, f.f4, f.f5, f.f6, f.f7⟩

/-- `F[2..7]`. -/
def Frame.tail6 (f : Frame) : Bytes6 := ⟨f.f2, f.f3, f.f4, f.f5, f.f6, f.f7⟩

/-- `F[3..7]`. -/
def Frame.tail5 (f : Frame) : Bytes5 := ⟨f.f3, f.f4, f.f5, f.f6, f.f7⟩

/-- A frame from its PCI nibbles and `F[1..7]` (R80). -/
def Frame.ofPci (t k : Nibble) (p : Bytes7) : Frame := ⟨t ++ k, p.b0, p.b1, p.b2, p.b3, p.b4, p.b5, p.b6⟩

/-- The SingleFrame layout (R82). -/
def Frame.single (len : Nibble) (p : Bytes7) : Frame := Frame.ofPci 0 len p

/-- The FirstFrame layout (R83): `F[0] = 0x10 | T[11:8]`, `F[1] = T[7:0]`. -/
def Frame.first (total : Len12) (p : Bytes6) : Frame :=
  Frame.ofPci 1 (total.extractLsb' 8 4) ⟨total.extractLsb' 0 8, p.b0, p.b1, p.b2, p.b3, p.b4, p.b5⟩

/-- The ConsecutiveFrame layout (R84). -/
def Frame.consecutive (sn : Nibble) (p : Bytes7) : Frame := Frame.ofPci 2 sn p

/-- The FlowControl layout (R85). -/
def Frame.flowControl (fs : Nibble) (bs st : Byte) (rsv : Bytes5) : Frame :=
  Frame.ofPci 3 fs ⟨bs, st, rsv.b0, rsv.b1, rsv.b2, rsv.b3, rsv.b4⟩

/-- The 12-bit total length an FF carries (R83). -/
def Frame.total (f : Frame) : Len12 := f.kindNibble ++ f.f1

/-- R81: classification of a transport unit by its type nibble. Total: the reserved nibbles are the last two rows. -/
def decodeFrame (f : Frame) : Instr :=
  match f.typeNibble.toNat with
  | 0 => .frameSf f.kindNibble f.tail7
  | 1 => .frameFf f.total f.tail6
  | 2 => .frameCf f.kindNibble f.tail7
  | 3 => .frameFc f.kindNibble f.f1 f.f2 f.tail5
  | t => if t ≤ 7 then .frameReserved f.typeNibble f.kindNibble f.tail7
      else .frameReservedHi f.typeNibble f.kindNibble f.tail7

/-! ### Command packets -/

/-- Why a command packet is not decoded (R94): its number of bytes. -/
inductive DecodeError where
  /-- A packet of no bytes: it has no opcode byte (assumption 13). -/
  | noOpcode
  /-- The opcode selects a command whose format has another length. -/
  | wrongLength (op : Byte)
  deriving DecidableEq, Repr

/-- Format `N` (R91): no operand byte. -/
def operandsN (i : Instr) : List Byte → Option Instr
  | [] => some i
  | _ => none

/-- Format `FR` (R91): a frame. -/
def operandsFR (mk : Frame → Instr) : List Byte → Option Instr
  | [a, b, c, d, e, f, g, h] => some (mk ⟨a, b, c, d, e, f, g, h⟩)
  | _ => none

/-- Format `SF` (R91): `len, p0..p6`. -/
def operandsSF (mk : Byte → Bytes7 → Instr) : List Byte → Option Instr
  | [len, a, b, c, d, e, f, g] => some (mk len ⟨a, b, c, d, e, f, g⟩)
  | _ => none

/-- Format `FF` (R91): `totH, totL, p0..p5`. -/
def operandsFF (mk : Half → Bytes6 → Instr) : List Byte → Option Instr
  | [h, l, a, b, c, d, e, f] => some (mk (be16 h l) ⟨a, b, c, d, e, f⟩)
  | _ => none

/-- Format `CF` (R91): `len, sn, p0..p6`. -/
def operandsCF (mk : Byte → Byte → Bytes7 → Instr) : List Byte → Option Instr
  | [len, sn, a, b, c, d, e, f, g] => some (mk len sn ⟨a, b, c, d, e, f, g⟩)
  | _ => none

/-- Format `FC` (R91): `bs, st, fs`. -/
def operandsFC (mk : Byte → Byte → Byte → Instr) : List Byte → Option Instr
  | [bs, st, fs] => some (mk bs st fs)
  | _ => none

/-- Format `T` (R91): a big-endian u32. -/
def operandsT (mk : Word → Instr) : List Byte → Option Instr
  | [b3, b2, b1, b0] => some (mk (be32 b3 b2 b1 b0))
  | _ => none

/-- Format `RS` (R91): `sid, hflag, hid, prm3..prm0`. -/
def operandsRS (mk : Byte → Byte → Byte → Word → Instr) : List Byte → Option Instr
  | [sid, hflag, hid, b3, b2, b1, b0] => some (mk sid hflag hid (be32 b3 b2 b1 b0))
  | _ => none

/-- Format `RSS` (R91): `sid, ssid, hflag, hid, prm3..prm0`. -/
def operandsRSS (mk : Byte → Byte → Byte → Byte → Word → Instr) : List Byte → Option Instr
  | [sid, ssid, hflag, hid, b3, b2, b1, b0] => some (mk sid ssid hflag hid (be32 b3 b2 b1 b0))
  | _ => none

/-- Formats `K` and `C` (R91): one byte. -/
def operandsByte (mk : Byte → Instr) : List Byte → Option Instr
  | [k] => some (mk k)
  | _ => none

/-- Format `A` (R91): a big-endian u16 offset. -/
def operandsA (mk : Half → Instr) : List Byte → Option Instr
  | [h, l] => some (mk (be16 h l))
  | _ => none

/-- The opcode map (R92): the command an opcode selects, as the reader of its operand bytes; none for a reserved opcode (R94). -/
def commandOf (op : Byte) : Option (List Byte → Option Instr) :=
  match op.toNat with
  | 0x01 => some (operandsSF .packSf)
  | 0x02 => some (operandsFR .unpackSf)
  | 0x03 => some (operandsFF .packFf)
  | 0x04 => some (operandsFR .unpackFf)
  | 0x05 => some (operandsCF .packCf)
  | 0x06 => some (operandsFR .unpackCf)
  | 0x07 => some (operandsFC .packFc)
  | 0x08 => some (operandsFR .unpackFc)
  | 0x10 => some (operandsRS .registerService)
  | 0x11 => some (operandsRSS .registerSubfunction)
  | 0x12 => some (operandsByte .findService)
  | 0x13 => some (operandsByte .removeService)
  | 0x20 => some (operandsN .init)
  | 0x21 => some (operandsN .delete)
  | 0x22 => some (operandsFR .receiveFrame)
  | 0x23 => some (operandsT .tick)
  | 0x24 => some (operandsN .dispatch)
  | 0x25 => some (operandsByte .handlerReturn)
  | 0x26 => some (operandsN .readState)
  | 0x27 => some (operandsA .readBuf)
  | 0x30 => some (operandsN .respondPositive)
  | 0x31 => some (operandsByte .respondNegative)
  | _ => none

/-- The packet length, opcode byte included, that an opcode alone determines (R91, R92, R95); none for a reserved opcode. -/
def packetLength (op : Byte) : Option Nat :=
  match op.toNat with
  | 0x01 | 0x02 | 0x03 | 0x04 | 0x06 | 0x08 | 0x11 | 0x22 => some 9
  | 0x05 => some 10
  | 0x07 => some 4
  | 0x10 => some 8
  | 0x12 | 0x13 | 0x25 | 0x31 => some 2
  | 0x20 | 0x21 | 0x24 | 0x26 | 0x30 => some 1
  | 0x23 => some 5
  | 0x27 => some 3
  | _ => none

/-- Decode a command packet (R90, R94, R95). A reserved opcode decodes to the table's row RESERVED_OPCODE, whose meaning refuses it,
whatever bytes follow. -/
def decodeCommand : List Byte → Except DecodeError Instr
  | [] => .error .noOpcode
  | op :: operands =>
    match commandOf op with
    | none => .ok (.reservedOpcode op)
    | some read =>
      match read operands with
      | some i => .ok i
      | none => .error (.wrongLength op)

/-- Decode whatever the host presents. -/
def decode : Input → Except DecodeError Instr
  | .command packet => decodeCommand packet
  | .wire unit => .ok (decodeFrame unit)

/-! ### The encoder -/

/-- The encoding of an instruction: a wire unit for the wire rows of the table (R82 to R85, R88), a command packet for the others (R91, R92).
The encoding of a reserved opcode is that byte alone. -/
def encode : Instr → Input
  | .frameSf len p => .wire (Frame.single len p)
  | .frameFf total p => .wire (Frame.first total p)
  | .frameCf sn p => .wire (Frame.consecutive sn p)
  | .frameFc fs bs st rsv => .wire (Frame.flowControl fs bs st rsv)
  | .frameReserved t lo p => .wire (Frame.ofPci t lo p)
  | .frameReservedHi t lo p => .wire (Frame.ofPci t lo p)
  | .packSf len p => .command (0x01 :: len :: p.toList)
  | .unpackSf f => .command (0x02 :: f.toList)
  | .packFf total p => .command (0x03 :: (bytes16 total ++ p.toList))
  | .unpackFf f => .command (0x04 :: f.toList)
  | .packCf len sn p => .command (0x05 :: len :: sn :: p.toList)
  | .unpackCf f => .command (0x06 :: f.toList)
  | .packFc bs st fs => .command [0x07, bs, st, fs]
  | .unpackFc f => .command (0x08 :: f.toList)
  | .registerService sid hflag hid param => .command (0x10 :: sid :: hflag :: hid :: bytes32 param)
  | .registerSubfunction sid ssid hflag hid param => .command (0x11 :: sid :: ssid :: hflag :: hid :: bytes32 param)
  | .findService key => .command [0x12, key]
  | .removeService key => .command [0x13, key]
  | .init => .command [0x20]
  | .delete => .command [0x21]
  | .receiveFrame f => .command (0x22 :: f.toList)
  | .tick now => .command (0x23 :: bytes32 now)
  | .dispatch => .command [0x24]
  | .handlerReturn code => .command [0x25, code]
  | .readState => .command [0x26]
  | .readBuf off => .command (0x27 :: bytes16 off)
  | .respondPositive => .command [0x30]
  | .respondNegative code => .command [0x31, code]
  | .reservedOpcode op => .command [op]

/-! ### The opcode table's words (assumption 12) -/

/-- The bytes of a table word, the first in the least significant place. -/
def wordBytes : Nat → Nat → List Byte
  | 0, _ => []
  | n + 1, w => BitVec.ofNat 8 w :: wordBytes n (w / 256)

/-- The transport unit of a table word. -/
def wordFrame (w : Nat) : Frame :=
  ⟨BitVec.ofNat 8 w, BitVec.ofNat 8 (w / 2 ^ 8), BitVec.ofNat 8 (w / 2 ^ 16), BitVec.ofNat 8 (w / 2 ^ 24),
    BitVec.ofNat 8 (w / 2 ^ 32), BitVec.ofNat 8 (w / 2 ^ 40), BitVec.ofNat 8 (w / 2 ^ 48), BitVec.ofNat 8 (w / 2 ^ 56)⟩

/-- The input a table word of `nbits` bits stands for, the bits above `nbits` zero: a command packet of the length its opcode has, if the
word is no longer than that; otherwise, if it fits, an 8-byte wire unit; otherwise a packet of the word's own length. -/
def tableInput (nbits w : Nat) : Input :=
  let v := w % 2 ^ nbits
  match packetLength (BitVec.ofNat 8 v) with
  | some n =>
    if nbits ≤ 8 * n then .command (wordBytes n v)
    else if nbits ≤ 64 then .wire (wordFrame v)
    else .command (wordBytes ((nbits + 7) / 8) v)
  | none => if nbits ≤ 64 then .wire (wordFrame v) else .command (wordBytes ((nbits + 7) / 8) v)

/-- What the decoder reads from a table word. -/
def decodeTableWord (nbits w : Nat) : Option Instr :=
  match decode (tableInput nbits w) with
  | .ok i => some i
  | .error _ => none

end Sys2Proof
end

