-- ==== Sys2Proof/Machine/State.lean ====
section
/-! DEFINITION. The state of the block (spec 10_state.md), its faults and refusals (60_exceptions.md R330, R333), its events (R43), and the
state after its reset, which is the command INIT (70_reset_and_hazards.md R360, 10_state.md R46). -/

namespace Sys2Proof.Machine

/-- `S.active`, the active request (R25). -/
inductive Active where
  | none
  | single
  | multi
  deriving DecidableEq, Repr

/-- `S.reasm_state` (R30). An abort is transient and never held. -/
inductive ReasmState where
  | idle
  | receiving
  | complete
  deriving DecidableEq, Repr

/-- `S.disp_state`, the dispatch sequencer (R40). -/
inductive DispState where
  | idle
  | waitService
  | waitSub
  deriving DecidableEq, Repr

/-- The status byte of a result packet (R320). `frameError` and `internalError` are returned by no command (R126, R283). -/
inductive Status where
  | ok
  | paramError
  | lengthError
  | typeError
  | frameError
  | memoryError
  | notFoundError
  | internalError
  | transmitError
  deriving DecidableEq, Repr

/-- What the transmit capability answers to one attempt (R285). -/
inductive TxAnswer where
  | ok
  | fail
  deriving DecidableEq, Repr

/-- The kind of a handler call (R250). -/
inductive HandlerKind where
  | service
  | subfunction
  deriving DecidableEq, Repr

/-- A sub-function entry (R51). -/
structure SubEntry where
  ssid : Byte
  hasHandler : Bool
  hid : Byte
  param : Word
  deriving DecidableEq, Repr

/-- A service entry (R50); the service id is its key in the registry. -/
structure ServiceEntry where
  hasHandler : Bool
  hid : Byte
  param : Word
  subs : List SubEntry
  deriving DecidableEq, Repr

/-- What the block puts on its output ports, in order (R43, R97): a transmit attempt with its answer, a handler call, a result packet. -/
inductive Event where
  | tx (frame : Frame) (answer : TxAnswer)
  | hcall (kind : HandlerKind) (sid ssid hid : Byte) (param : Word)
  | result (packet : List Byte)
  deriving DecidableEq, Repr

/-- Why a step stops with a fault: the four kinds of R330, and two of the model's own for states that no run reaches (assumption 9). -/
inductive Fault where
  /-- `NOT_LIVE`: raised by every engine command but INIT while `live` is false (R331). Safe: the spec's own fault. -/
  | notLive
  /-- `ALREADY_LIVE`: raised by INIT while `live` is true (R300). Safe: the spec's own fault. -/
  | alreadyLive
  /-- `COMMAND_DURING_DISPATCH`: raised by DISPATCH, REGISTER_SERVICE, REGISTER_SUBFUNCTION, REMOVE_SERVICE and DELETE while a handler call
  is outstanding (R332). Safe: the spec's own fault. -/
  | commandDuringDispatch
  /-- `NO_HANDLER_CALL`: raised by HANDLER_RETURN while no call is outstanding (R252). Safe: the spec's own fault. -/
  | noHandlerCall
  /-- The model's own: an in-sequence CF that would copy no byte, or a byte outside the buffer, for which `MemWrite` is not defined (R10, R64).
  Raised by the CF intake. Safe: the invariant of Safety.lean excludes it. -/
  | reassemblyRange
  /-- The model's own: the sub-function phase of a dispatch whose service entry is not in the registry (R248). Raised by DISPATCH and
  HANDLER_RETURN. Safe: the invariant of Safety.lean excludes it. -/
  | entryMissing
  deriving DecidableEq, Repr

/-- Why an input is refused (R333). -/
inductive Refusal where
  /-- An instruction that has no meaning in the model yet: raised by exec's arms only. Safe. -/
  | notModelled (mnemonic : String)
  /-- A command packet with a reserved opcode (R94). Raised by the row RESERVED_OPCODE. Safe: the spec's own refusal. -/
  | reservedOpcode (op : Byte)
  /-- A command packet with a number of bytes different from its format's (R94). Raised by step. Safe: the spec's own refusal. -/
  | malformedPacket (why : DecodeError)
  /-- A configuration that is not well-formed (R7, R333). Raised by step. Safe: the spec's own refusal. -/
  | illFormedConfig
  /-- A step after a refusal, which is never cleared (R42, R333). Raised by step. Safe. -/
  | alreadyRefused
  deriving DecidableEq, Repr

/-- Everything the spec gives the block, the model bookkeeping of R42 and R43, the configuration (R44, assumption 5), and the model's own
`input`, `txAnswers` and `draws` (assumptions 1, 6 and 7). -/
structure State where
  /-- The configuration, written by no command (R44). -/
  cfg : Config
  /-- `S.live` (R22). -/
  live : Bool
  /-- `S.sid` (R23). -/
  sid : Byte
  /-- `S.ssid` (R24). -/
  ssid : Byte
  /-- `S.active` (R25). -/
  active : Active
  /-- `S.busy` (R26). -/
  busy : Bool
  /-- `S.tick` (R27). -/
  tick : Word
  /-- `S.last_activity` (R28). -/
  lastActivity : Word
  /-- `S.ncs_active` (R29). -/
  ncsActive : Bool
  /-- `S.ncs_mark` (R29). -/
  ncsMark : Word
  /-- `S.reasm_state` (R30). -/
  reasmState : ReasmState
  /-- `S.reasm_total` (R31). -/
  reasmTotal : Len12
  /-- `S.reasm_recv` (R32). -/
  reasmRecv : Len12
  /-- `S.reasm_exp_sn` (R33). -/
  reasmExpSn : Nibble
  /-- `S.reasm_buf` (R34): the nonzero bytes by offset; an unlisted offset reads 0. -/
  reasmBuf : List Host.Cell
  /-- `S.rx_buf` (R36). -/
  rxBuf : Bytes7
  /-- `S.rx_len` (R36). -/
  rxLen : BitVec 3
  /-- `S.reg` (R37): the service entries by key. -/
  reg : List (Byte × ServiceEntry)
  /-- `S.reg_remaining` (R38). -/
  regRemaining : Nat
  /-- `S.reg_chains` (R39): hidden, no result depends on it. -/
  regChains : List (List Byte)
  /-- `S.disp_state` (R40). -/
  dispState : DispState
  /-- `S.disp_sid` (R41). -/
  dispSid : Byte
  /-- `S.fault` (R42). -/
  fault : Option Fault
  /-- `S.refused` (R42). -/
  refused : Bool
  /-- `S.trace` (R43), oldest first. -/
  trace : List Event
  /-- The model's own: what the host has presented and the block has not executed, oldest first (R69, R90). -/
  input : List Input
  /-- The model's own: the transmit capability's coming answers, oldest first (R285). -/
  txAnswers : List TxAnswer
  /-- The model's own: how many free values have been drawn. -/
  draws : Nat
  deriving DecidableEq, Repr

/-- R46, R360: the state after INIT under a given configuration, at the start of a run, with nothing presented. -/
def State.resetWith (cfg : Config) : State where
  cfg := cfg
  live := true
  sid := cfg.defaultSid
  ssid := cfg.defaultSsid
  active := .none
  busy := false
  tick := 0
  lastActivity := 0
  ncsActive := false
  ncsMark := 0
  reasmState := .idle
  reasmTotal := 0
  reasmRecv := 0
  reasmExpSn := 0
  reasmBuf := []
  rxBuf := Bytes7.zero
  rxLen := 0
  reg := []
  regRemaining := cfg.maxServices
  regChains := List.replicate cfg.bucketCount []
  dispState := .idle
  dispSid := 0
  fault := none
  refused := false
  trace := []
  input := []
  txAnswers := []
  draws := 0

/-- The machine right after reset (assumptions 3 and 4). -/
def State.reset : State := State.resetWith Config.vectors

end Sys2Proof.Machine
end

