-- ==== Sys2Proof/Machine/Operands.lean ====
section
/-! DEFINITION. Operand forms and result bytes (spec 30_encoding.md R93, R96), and the eight pure functions of the Frame Codec that the engine
shares with the codec commands (40_codec.md R120). -/

namespace Sys2Proof.Machine

/-- R96: `hflag` 0 means no handler, any other value a handler. -/
def hasHandler (hflag : Byte) : Bool := decide (hflag ≠ 0)

/-- R320: the value of a status byte. -/
def Status.code : Status → Byte
  | .ok => 0x00
  | .paramError => 0x01
  | .lengthError => 0x02
  | .typeError => 0x03
  | .frameError => 0x04
  | .memoryError => 0x05
  | .notFoundError => 0x06
  | .internalError => 0x07
  | .transmitError => 0x08

/-- The status a transmit answer gives (R285). -/
def TxAnswer.status : TxAnswer → Status
  | .ok => .ok
  | .fail => .transmitError

/-- The first `n` of seven bytes, the others zero: `p[0..n-1] ++ zeros(7 - n)` (R121, R125). -/
def keepBytes (n : Nat) (p : Bytes7) : Bytes7 :=
  ⟨if 0 < n then p.b0 else 0, if 1 < n then p.b1 else 0, if 2 < n then p.b2 else 0, if 3 < n then p.b3 else 0,
    if 4 < n then p.b4 else 0, if 5 < n then p.b5 else 0, if 6 < n then p.b6 else 0⟩

/-- A payload list laid out in seven bytes, zero beyond its end. -/
def payload7 (l : List Byte) : Bytes7 :=
  ⟨l.getD 0 0, l.getD 1 0, l.getD 2 0, l.getD 3 0, l.getD 4 0, l.getD 5 0, l.getD 6 0⟩

/-- A byte's length field is that of a packed SF or CF: `1 <= len <= 7` (R121, R125). -/
def packable (len : Byte) : Bool := decide (1 ≤ len.toNat) && decide (len.toNat ≤ 7)

/-- `PackSingle` (R121). -/
def packSingle (len : Byte) (p : Bytes7) : Except Status Frame :=
  if packable len then .ok (Frame.single (loNibble len) (keepBytes len.toNat p)) else .error .lengthError

/-- `UnpackSingle` (R122): the type is tested before the length; the seven bytes are returned as they stand. -/
def unpackSingle (f : Frame) : Except Status (Nibble × Bytes7) :=
  if f.typeNibble ≠ 0 then .error .typeError
  else if 7 < f.kindNibble.toNat then .error .lengthError
  else .ok (f.kindNibble, f.tail7)

/-- `PackFirst` (R123). -/
def packFirst (total : Half) (p : Bytes6) : Except Status Frame :=
  if 7 < total.toNat ∧ total.toNat ≤ 4095 then .ok (Frame.first (total.extractLsb' 0 12) p) else .error .lengthError

/-- `UnpackFirst` (R124): `T > 4095` cannot be encoded, so the upper test has no counterpart. -/
def unpackFirst (f : Frame) : Except Status (Len12 × Bytes6) :=
  if f.typeNibble ≠ 1 then .error .typeError
  else if f.total.toNat < 8 then .error .lengthError
  else .ok (f.total, f.tail6)

/-- `PackConsecutive` (R125): the length is tested before the sequence number. -/
def packConsecutive (len sn : Byte) (p : Bytes7) : Except Status Frame :=
  if !packable len then .error .lengthError
  else if 15 < sn.toNat then .error .paramError
  else .ok (Frame.consecutive (loNibble sn) (keepBytes len.toNat p))

/-- `UnpackConsecutive` (R126). Its FRAME_ERROR is unreachable, the sequence number being 4 bits (assumption 15). -/
def unpackConsecutive (f : Frame) : Except Status (Nibble × Bytes7) :=
  if f.typeNibble ≠ 2 then .error .typeError
  else if 15 < f.kindNibble.toNat then .error .frameError
  else .ok (f.kindNibble, f.tail7)

/-- `PackFlowControl` (R127): always succeeds; the flow status is cut to its low nibble. -/
def packFlowControl (bs st fs : Byte) : Frame := Frame.flowControl (loNibble fs) bs st Bytes5.zero

/-- `UnpackFlowControl` (R128): flow status, block size, separation time. -/
def unpackFlowControl (f : Frame) : Except Status (Nibble × Byte × Byte) :=
  if f.typeNibble ≠ 3 then .error .typeError else .ok (f.kindNibble, f.f1, f.f2)

/-- The flow status Continue-To-Send (R86). -/
def flowCts : Byte := 0

end Sys2Proof.Machine
end

