-- ==== Sys2Proof/Machine/Flags.lean ====
section
/-! DEFINITION. The block has no condition codes (spec 10_state.md R45). Its status flags are state; here are their encodings in a READ_STATE
result (R25, R30, R40) and the tests that are computed from the tick counter (43_timer_dispatch.md R241, R243). -/

namespace Sys2Proof.Machine

/-- A one-bit flag in a result byte. -/
def flagByte (b : Bool) : Byte := if b then 1 else 0

/-- `enc(S.active)` (R25). -/
def Active.code : Active → Byte
  | .none => 0
  | .single => 1
  | .multi => 2

/-- `enc(S.reasm_state)` (R30). -/
def ReasmState.code : ReasmState → Byte
  | .idle => 0
  | .receiving => 1
  | .complete => 2

/-- `enc(S.disp_state)` (R40). -/
def DispState.code : DispState → Byte
  | .idle => 0
  | .waitService => 1
  | .waitSub => 2

/-- `elapsed(mark)`: ticks since the mark, modulo 2^32 (R241). -/
def elapsed (s : State) (mark : Word) : Word := s.tick - mark

/-- R243: the session timeout has elapsed. -/
def sessionExpired (s : State) : Bool := decide (s.cfg.sessionTimeout.toNat ≤ (elapsed s s.lastActivity).toNat)

/-- R243: the N_Cs timer runs and its timeout has elapsed. -/
def ncsExpired (s : State) : Bool := s.ncsActive && decide (s.cfg.ncsTimeout.toNat ≤ (elapsed s s.ncsMark).toNat)

/-- R332: a handler call is outstanding. -/
def waiting (s : State) : Bool := decide (s.dispState ≠ .idle)

end Sys2Proof.Machine
end

