-- ==== Sys2Proof/Machine/Ops.lean ====
section
/-! DEFINITION. The named operations over the state: rows kept in rank order, the reassembly buffer (spec 20_memory.md R60, R64), the registry
primitives (41_registry.md R160 to R166), the three output ports (30_encoding.md R97), the Response Builder's primitives (44_response.md), the
reassembly primitives (42_receive.md R216, R217), the handler call, which is the block's only suspension (60_exceptions.md R342), and the
admission of commands (R331, R332). -/

namespace Sys2Proof.Machine

/-! ### Rows in rank order -/

/-- The first row of rank `n`. -/
def findRow {ρ : Type} (rank : ρ → Nat) (n : Nat) : List ρ → Option ρ
  | [] => none
  | x :: xs => if rank x = n then some x else findRow rank n xs

/-- Put a row in its place, over a row of the same rank. -/
def putRow {ρ : Type} (rank : ρ → Nat) (r : ρ) : List ρ → List ρ
  | [] => [r]
  | x :: xs =>
    if rank r < rank x then r :: x :: xs
    else if rank r = rank x then r :: xs
    else x :: putRow rank r xs

/-- Remove the rows of rank `n`. -/
def dropRow {ρ : Type} (rank : ρ → Nat) (n : Nat) (l : List ρ) : List ρ := l.filter (fun x => decide (rank x ≠ n))

/-- The ranks rise strictly. -/
def rowsRise {ρ : Type} (rank : ρ → Nat) : List ρ → Bool
  | [] => true
  | x :: xs => xs.all (fun y => decide (rank x < rank y)) && rowsRise rank xs

/-! ### The reassembly buffer -/

/-- The rank of a buffer cell is its offset. -/
def cellRank (c : Host.Cell) : Nat := c.1

/-- `MemRead` of one byte (R10): an unlisted offset reads 0 (R46). -/
def Memory.read (m : List Host.Cell) (a : Nat) : Byte :=
  match findRow cellRank a m with
  | some c => c.2
  | none => 0

/-- `MemWrite` of one byte. Writing 0 removes the cell, so that equal contents are equal lists. -/
def Memory.write (m : List Host.Cell) (a : Nat) (v : Byte) : List Host.Cell :=
  if v = 0 then dropRow cellRank a m else putRow cellRank (a, v) m

/-- `MemWrite(B, off, n, v)` (R10): consecutive bytes from an offset. -/
def Memory.writeBytes (m : List Host.Cell) (a : Nat) : List Byte → List Host.Cell
  | [] => m
  | v :: vs => Memory.writeBytes (Memory.write m a v) (a + 1) vs

/-- The canonical form: offsets rise and no cell holds 0. -/
def Memory.wf (m : List Host.Cell) : Bool := rowsRise cellRank m && m.all (fun c => decide (c.2 ≠ 0))

/-- Every cell lies in a buffer of `n` bytes (R68). -/
def Memory.below (n : Nat) (m : List Host.Cell) : Bool := m.all (fun c => decide (c.1 < n))

/-! ### The registry -/

/-- The rank of a registry row is its key. -/
def rowKey (r : Byte × ServiceEntry) : Nat := r.1.toNat

/-- `bucket(k)` (R160). -/
def bucketOf (n : Nat) (k : Byte) : Nat := ((k.toNat * Config.hashMultiplier) % 2 ^ 32) % n

/-- `RegFind(k)` (R163). -/
def regFind (k : Byte) (s : State) : Option ServiceEntry := (findRow rowKey k.toNat s.reg).map Prod.snd

/-- `RegInsert(k, v)` (R162). -/
def regInsert (k : Byte) (v : ServiceEntry) (s : State) : Status × State :=
  if (regFind k s).isSome then (.ok, { s with reg := putRow rowKey (k, v) s.reg })
  else if s.regRemaining = 0 then (.memoryError, s)
  else
    (.ok,
      { s with
        reg := putRow rowKey (k, v) s.reg
        regChains := s.regChains.modify (bucketOf s.cfg.bucketCount k) (fun chain => k :: chain)
        regRemaining := s.regRemaining - 1 })

/-- `RegRemove(k)` (R164). -/
def regRemove (k : Byte) (s : State) : Status × State :=
  if (regFind k s).isNone then (.notFoundError, s)
  else
    (.ok,
      { s with
        reg := dropRow rowKey k.toNat s.reg
        regChains := s.regChains.modify (bucketOf s.cfg.bucketCount k) (fun chain => chain.filter (fun x => decide (x ≠ k)))
        regRemaining := s.regRemaining + 1 })

/-- `FindSub(e, s)` (R166): the earliest entry with the id. -/
def findSub (ssid : Byte) : List SubEntry → Option SubEntry
  | [] => none
  | x :: xs => if x.ssid = ssid then some x else findSub ssid xs

/-! ### Output ports -/

/-- Append an event (R43). -/
def emit (e : Event) (s : State) : State := { s with trace := s.trace ++ [e] }

/-- The answer the transmit capability gives next (R285): the oldest the state holds, a free value where it holds none (assumption 6). -/
def nextAnswer (s : State) : TxAnswer :=
  match s.txAnswers with
  | a :: _ => a
  | [] => if Config.txAnswerOk s.draws then .ok else .fail

/-- Use that answer up. -/
def takeAnswer (s : State) : State :=
  match s.txAnswers with
  | _ :: rest => { s with txAnswers := rest }
  | [] => { s with draws := s.draws + 1 }

/-- `Transmit(F)` (R285). -/
def transmit (f : Frame) (s : State) : Status × State :=
  if s.cfg.txPresent then ((nextAnswer s).status, emit (.tx f (nextAnswer s)) (takeAnswer s)) else (.transmitError, s)

/-- Pack a response payload as a SingleFrame and transmit it (R280, R281). The packing error is dead (R283, assumption 15). -/
def respond (payload : List Byte) (s : State) : Status × State :=
  match packSingle (BitVec.ofNat 8 payload.length) (payload7 payload) with
  | .error _ => (.internalError, s)
  | .ok f => transmit f s

/-- The payload of a positive response (R280). -/
def positivePayload (s : State) : List Byte := (s.sid + 0x40) :: if s.ssid ≠ 0 then [s.ssid] else []

/-- `RespondPositive()` (R280). -/
def respondPositive (s : State) : Status × State := respond (positivePayload s) s

/-- `RespondNegative(code)` (R281). -/
def respondNegative (code : Byte) (s : State) : Status × State := respond [0x7F, s.sid, code] s

/-- `Translate(c)` (R282): the status is discarded. -/
def translate (c : Byte) (s : State) : State :=
  if c = s.cfg.hrSuccess then (respondPositive s).2
  else if c = s.cfg.hrNoResponse then s
  else (respondNegative c s).2

/-! ### Reassembly primitives -/

/-- `Abort()` (R216). -/
def abort (s : State) : State :=
  { s with reasmState := .idle, reasmTotal := 0, reasmRecv := 0, reasmExpSn := 0, reasmBuf := [], ncsActive := false }

/-- `ClearBuffers()` (R217). -/
def clearBuffers (s : State) : State := { abort s with rxBuf := Bytes7.zero, rxLen := 0 }

/-! ### The handler call -/

/-- Suspend a dispatch at a handler call (R246, R248, R250): busy, the HCALL event, the wait state. -/
def callHandler (kind : HandlerKind) (hid : Byte) (param : Word) (s : State) : State :=
  { emit (.hcall kind s.dispSid s.ssid hid param) s with
    busy := true
    dispState := match kind with
      | .service => .waitService
      | .subfunction => .waitSub }

/-- `Finish()` (R251). -/
def finish (s : State) : State := { clearBuffers s with dispState := .idle }

/-! ### Results, admission, inputs -/

/-- The outcome of one command. -/
abbrev Result := Host.Outcome State Fault Refusal

/-- Complete a command with a status and its output bytes (R93): `n` zero bytes when the status is not OK. -/
def complete (st : Status) (n : Nat) (outs : List Byte) (s : State) : Result :=
  .next (emit (.result (st.code :: if st = .ok then outs else List.replicate n 0)) s)

/-- Complete a command that has no outputs with the status of a primitive. -/
def completeWith (r : Status × State) : Result := complete r.1 0 [] r.2

/-- Complete a codec command: the outputs, or the status of the failed check and `n` zero bytes. -/
def completeCodec (n : Nat) (r : Except Status (List Byte)) (s : State) : Result :=
  match r with
  | .ok outs => complete .ok n outs s
  | .error st => complete st n [] s

/-- Complete a command that is always OK when admitted, or stop with the model's own fault. -/
def completeOk (r : Except Fault State) : Result :=
  match r with
  | .ok s => complete .ok 0 [] s
  | .error k => .fault k

/-- R331: an engine command other than INIT needs a live engine. -/
def whenLive (s : State) (r : Result) : Result := if s.live then r else .fault .notLive

/-- R331, R332: the commands that are not admitted while a handler call is outstanding. The live check is first. -/
def whenIdle (s : State) (r : Result) : Result := whenLive s (if waiting s then .fault .commandDuringDispatch else r)

/-- The outcome of a step that executes no input: the run has already stopped, or its configuration is refused (R42, R330, R333). -/
def stopped (s : State) : Option Result :=
  match s.fault with
  | some k => some (.fault k)
  | none =>
    if s.refused then some (.refused .alreadyRefused)
    else if s.cfg.wf then none
    else some (.refused .illFormedConfig)

/-- The state with its oldest input taken. -/
def takeInput (s : State) : State := { s with input := s.input.tail }

/-! ### Free values (assumption 7) -/

/-- An unspecified byte: draw `d`, place `p`. -/
def freeByte (d p : Nat) : Byte := BitVec.ofNat 8 (Config.freeNat d p)

/-- An unspecified u32. -/
def freeWord (d p : Nat) : Word := BitVec.ofNat 32 (Config.freeNat d p)

/-- An unspecified bit. -/
def freeBool (d p : Nat) : Bool := decide (Config.freeNat d p % 2 = 1)

/-- An unspecified active request: one of the three values it can hold (R25). -/
def freeActive (d p : Nat) : Active :=
  match Config.freeNat d p % 3 with
  | 0 => .none
  | 1 => .single
  | _ => .multi

/-- An unspecified reassembly state (R30). -/
def freeReasmState (d p : Nat) : ReasmState :=
  match Config.freeNat d p % 3 with
  | 0 => .idle
  | 1 => .receiving
  | _ => .complete

/-- Unspecified contents of a buffer of `n` bytes, in canonical form. -/
def freeBuffer (d : Nat) : Nat → List Host.Cell
  | 0 => []
  | n + 1 => Memory.write (freeBuffer d n) n (freeByte d (1000 + n))

/-- `n` unspecified sub-function entries, from place `p` on. -/
def freeSubs (d p : Nat) : Nat → List SubEntry
  | 0 => []
  | n + 1 => ⟨freeByte d p, freeBool d (p + 1), freeByte d (p + 2), freeWord d (p + 3)⟩ :: freeSubs d (p + 4) n

/-- An unspecified registry of at most `n` services with at most `m` sub-functions each. -/
def freeRegistry (d m : Nat) : Nat → List (Byte × ServiceEntry)
  | 0 => []
  | n + 1 =>
    let p := 10000 + n * (4 * m + 10)
    putRow rowKey
      (freeByte d p, ⟨freeBool d (p + 1), freeByte d (p + 2), freeWord d (p + 3), freeSubs d (p + 5) (Config.freeNat d (p + 4) % (m + 1))⟩)
      (freeRegistry d m n)

/-- `n` unspecified keys, from place `p` on. -/
def freeKeys (d p : Nat) : Nat → List Byte
  | 0 => []
  | n + 1 => freeByte d p :: freeKeys d (p + 1) n

/-- `n` unspecified chains. -/
def freeChains (d : Nat) : Nat → List (List Byte)
  | 0 => []
  | n + 1 => freeKeys d (1000000 + 300 * n + 1) (Config.freeNat d (1000000 + 300 * n) % 257) :: freeChains d n

/-- R46's column "value after DELETE": every field it calls unspecified takes a free value, of those the field can hold. -/
def unspecify (s : State) : State :=
  { s with
    sid := freeByte s.draws 0
    ssid := freeByte s.draws 1
    active := freeActive s.draws 2
    busy := freeBool s.draws 3
    tick := freeWord s.draws 4
    lastActivity := freeWord s.draws 5
    ncsActive := freeBool s.draws 6
    ncsMark := freeWord s.draws 7
    reasmState := freeReasmState s.draws 8
    reasmTotal := BitVec.ofNat 12 (Config.freeNat s.draws 9)
    reasmRecv := BitVec.ofNat 12 (Config.freeNat s.draws 10)
    reasmExpSn := BitVec.ofNat 4 (Config.freeNat s.draws 11)
    reasmBuf := freeBuffer s.draws s.cfg.reasmCapacity
    rxBuf := ⟨freeByte s.draws 12, freeByte s.draws 13, freeByte s.draws 14, freeByte s.draws 15, freeByte s.draws 16,
      freeByte s.draws 17, freeByte s.draws 18⟩
    rxLen := BitVec.ofNat 3 (Config.freeNat s.draws 19)
    regRemaining := Config.freeNat s.draws 20 % (s.cfg.maxServices + 1)
    dispSid := freeByte s.draws 21
    draws := s.draws + 1 }

end Sys2Proof.Machine
end

