-- ==== Sys2Proof/Machine/Codec.lean ====
section
/-! DEFINITION. The Frame Codec commands (spec 40_codec.md): pure functions of their operands, accepted in every state of the block (R120). -/

namespace Sys2Proof.Machine

/-- PACK_SF (R121). -/
def execPackSf (len : Byte) (p : Bytes7) (s : State) : Result :=
  completeCodec 8 ((packSingle len p).map Frame.toList) s

/-- UNPACK_SF (R122): `len, p0..p6`. -/
def execUnpackSf (f : Frame) (s : State) : Result :=
  completeCodec 8 ((unpackSingle f).map fun r => r.1.setWidth 8 :: r.2.toList) s

/-- PACK_FF (R123). -/
def execPackFf (total : Half) (p : Bytes6) (s : State) : Result :=
  completeCodec 8 ((packFirst total p).map Frame.toList) s

/-- UNPACK_FF (R124): `totH, totL, p0..p5`. -/
def execUnpackFf (f : Frame) (s : State) : Result :=
  completeCodec 8 ((unpackFirst f).map fun r => bytes16 (r.1.setWidth 16) ++ r.2.toList) s

/-- PACK_CF (R125). -/
def execPackCf (len sn : Byte) (p : Bytes7) (s : State) : Result :=
  completeCodec 8 ((packConsecutive len sn p).map Frame.toList) s

/-- UNPACK_CF (R126): `sn, p0..p6`. -/
def execUnpackCf (f : Frame) (s : State) : Result :=
  completeCodec 8 ((unpackConsecutive f).map fun r => r.1.setWidth 8 :: r.2.toList) s

/-- PACK_FC (R127): always OK. -/
def execPackFc (bs st fs : Byte) (s : State) : Result :=
  complete .ok 8 (packFlowControl bs st fs).toList s

/-- UNPACK_FC (R128): `fs, bs, st`. -/
def execUnpackFc (f : Frame) (s : State) : Result :=
  completeCodec 3 ((unpackFlowControl f).map fun r => [r.1.setWidth 8, r.2.1, r.2.2]) s

end Sys2Proof.Machine
end

