-- ==== Sys2Proof/Machine/Lifecycle.lean ====
section
/-! DEFINITION. INIT, DELETE, READ_STATE and READ_BUF (spec 45_lifecycle.md), and the block at power-on (70_reset_and_hazards.md R360). -/

namespace Sys2Proof.Machine

/-- R46's column "value after INIT", with an empty registry (R161). The bookkeeping and what the host has presented stay. -/
def initialise (s : State) : State :=
  { s with
    live := true
    sid := s.cfg.defaultSid
    ssid := s.cfg.defaultSsid
    active := .none
    busy := false
    tick := 0
    lastActivity := 0
    ncsActive := false
    ncsMark := 0
    reasmState := .idle
    reasmTotal := 0
    reasmRecv := 0
    reasmExpSn := 0
    reasmBuf := []
    rxBuf := Bytes7.zero
    rxLen := 0
    reg := []
    regRemaining := s.cfg.maxServices
    regChains := List.replicate s.cfg.bucketCount []
    dispState := .idle
    dispSid := 0 }

/-- R302, R165: the engine is torn down, its registry destroyed, every other field unspecified (R46). -/
def tearDown (s : State) : State :=
  { unspecify s with live := false, reg := [], regChains := [], dispState := .idle }

/-- INIT (R300): PARAM_ERROR with nothing written when `BUCKET_COUNT` is 0 (R161). -/
def execInit (s : State) : Result :=
  if s.live then .fault .alreadyLive
  else if s.cfg.bucketCount = 0 then complete .paramError 0 [] s
  else complete .ok 0 [] (initialise s)

/-- DELETE (R302). -/
def execDelete (s : State) : Result := whenIdle s (complete .ok 0 [] (tearDown s))

/-- The 35 output bytes of READ_STATE (R303), in the order of its table. -/
def stateOutputs (s : State) : List Byte :=
  [s.sid, s.ssid, s.active.code, flagByte s.busy, s.reasmState.code]
    ++ bytes16 (s.reasmTotal.setWidth 16) ++ bytes16 (s.reasmRecv.setWidth 16)
    ++ [s.reasmExpSn.setWidth 8, flagByte s.ncsActive]
    ++ bytes32 s.tick ++ bytes32 s.lastActivity ++ bytes32 s.ncsMark
    ++ [s.dispState.code, s.dispSid] ++ bytes16 (BitVec.ofNat 16 s.regRemaining)
    ++ [s.rxLen.setWidth 8] ++ s.rxBuf.toList

/-- READ_STATE (R303). -/
def execReadState (s : State) : Result := whenLive s (complete .ok 35 (stateOutputs s) s)

/-- READ_BUF (R304). -/
def execReadBuf (off : Half) (s : State) : Result :=
  whenLive s
    (if s.cfg.reasmCapacity ≤ off.toNat then complete .paramError 1 [] s
    else complete .ok 1 [Memory.read s.reasmBuf off.toNat] s)

/-- The block at power-on, before the first INIT (R46, R360): only `live` and `dispState` are defined, every other field is a free value,
the registry and its chains too (assumption 8). -/
def State.powerOn (cfg : Config) : State :=
  { unspecify (State.resetWith cfg) with
    live := false
    reg := freeRegistry 0 cfg.maxSubfunctions (Config.freeNat 0 22 % (cfg.maxServices + 1))
    regChains := freeChains 0 (Config.freeNat 0 23)
    dispState := .idle }

end Sys2Proof.Machine
end

