-- ==== Sys2Proof/Machine/Receive.lean ====
section
/-! DEFINITION. Frame intake and the reassembly state machine (spec 42_receive.md): RECEIVE_FRAME and its branches, and the wire rows of the
opcode table, each of which is the intake of a frame of that kind (assumption 2). -/

namespace Sys2Proof.Machine

/-- IntakeSF (R206). -/
def intakeSingle (f : Frame) (s : State) : State :=
  match unpackSingle f with
  | .error _ => s
  | .ok (len, p) =>
    if s.busy then (respondNegative s.cfg.nrcBrr s).2
    else
      { s with
        lastActivity := s.tick
        rxBuf := p
        rxLen := len.setWidth 3
        sid := p.b0
        ssid := if 2 ≤ len.toNat then p.b1 else 0
        active := .single }

/-- IntakeFF, part 1 (R207): a reassembly in progress is answered RequestSequenceError and aborted. -/
def abortRunning (s : State) : State :=
  if s.reasmState = .receiving then abort (respondNegative s.cfg.nrcRse s).2 else s

/-- The reassembly an accepted FF leaves, before its Flow-Control frame is sent (R209). -/
def latchFirst (total : Len12) (p : Bytes6) (s : State) : State :=
  { s with
    reasmBuf := Memory.writeBytes s.reasmBuf 0 p.toList
    reasmTotal := total
    reasmRecv := 6
    reasmExpSn := 1
    reasmState := .receiving
    sid := p.b0
    ssid := if s.cfg.ffLatchesSsid then p.b1 else s.ssid }

/-- Start the N_Cs timer (R209). -/
def startNcs (s : State) : State := { s with ncsActive := true, ncsMark := s.tick }

/-- IntakeFF, part 3 (R209). -/
def startReassembly (total : Len12) (p : Bytes6) (s : State) : State :=
  let t := { s with lastActivity := s.tick }
  if s.cfg.reasmCapacity < total.toNat then abort (respondNegative s.cfg.nrcRtl t).2
  else startNcs (transmit (packFlowControl 0 0 flowCts) (latchFirst total p t)).2

/-- IntakeFF (R207 to R209): in progress, then busy, then capacity (R334). -/
def intakeFirst (f : Frame) (s : State) : State :=
  match unpackFirst f with
  | .error _ => s
  | .ok (total, p) =>
    let t := abortRunning s
    if t.busy then (respondNegative t.cfg.nrcBrr t).2 else startReassembly total p t

/-- IntakeCF, part 4 (R213): `n` bytes at the receive offset, then completion or the N_Cs restart. -/
def acceptConsecutive (p : Bytes7) (n : Nat) (s : State) : State :=
  let t := { s with
    reasmBuf := Memory.writeBytes s.reasmBuf s.reasmRecv.toNat (p.toList.take n)
    reasmRecv := s.reasmRecv + BitVec.ofNat 12 n
    reasmExpSn := s.reasmExpSn + 1 }
  if t.reasmRecv = t.reasmTotal then { t with reasmState := .complete, active := .multi, ncsActive := false }
  else if t.cfg.ncsRestartOnCf then { t with ncsMark := t.tick }
  else t

/-- `min(7, remaining)` (R213). -/
def copyCount (s : State) : Nat := min 7 (s.reasmTotal.toNat - s.reasmRecv.toNat)

/-- IntakeCF (R210 to R213). The fault is the model's own, for a copy R64 says is never made (assumption 9). -/
def intakeConsecutive (f : Frame) (s : State) : Except Fault State :=
  if s.reasmState ≠ .receiving then .ok s
  else
    match unpackConsecutive f with
    | .error _ => .ok s
    | .ok (sn, p) =>
      let t := { s with lastActivity := s.tick }
      if sn ≠ t.reasmExpSn then .ok (respondNegative t.cfg.nrcRse (abort t)).2
      else if copyCount t = 0 ∨ t.cfg.reasmCapacity < t.reasmRecv.toNat + copyCount t then .error .reassemblyRange
      else .ok (acceptConsecutive p (copyCount t) t)

/-- R205: classify by type nibble and run the branch. An FC and a reserved nibble do nothing (R214, R215). -/
def receive (f : Frame) (s : State) : Except Fault State :=
  match f.typeNibble.toNat with
  | 0 => .ok (intakeSingle f s)
  | 1 => .ok (intakeFirst f s)
  | 2 => intakeConsecutive f s
  | _ => .ok s

/-- RECEIVE_FRAME (R201, R205): admitted in every dispatch state, always OK. -/
def execReceiveFrame (f : Frame) (s : State) : Result := whenLive s (completeOk (receive f s))

/-- FRAME_SF: the intake of a SingleFrame (R82, R206). -/
def execFrameSf (len : Nibble) (p : Bytes7) (s : State) : Result :=
  whenLive s (completeOk (.ok (intakeSingle (Frame.single len p) s)))

/-- FRAME_FF: the intake of a FirstFrame (R83, R207 to R209). -/
def execFrameFf (total : Len12) (p : Bytes6) (s : State) : Result :=
  whenLive s (completeOk (.ok (intakeFirst (Frame.first total p) s)))

/-- FRAME_CF: the intake of a ConsecutiveFrame (R84, R210 to R213). -/
def execFrameCf (sn : Nibble) (p : Bytes7) (s : State) : Result :=
  whenLive s (completeOk (intakeConsecutive (Frame.consecutive sn p) s))

/-- FRAME_FC: the intake of a FlowControl frame does nothing (R214). -/
def execFrameFc (_fs : Nibble) (_bs _st : Byte) (_rsv : Bytes5) (s : State) : Result := whenLive s (completeOk (.ok s))

/-- FRAME_RESERVED: a frame of type nibble 4..7 is dropped (R215). -/
def execFrameReserved (_t _lo : Nibble) (_rest : Bytes7) (s : State) : Result := whenLive s (completeOk (.ok s))

/-- FRAME_RESERVED_HI: a frame of type nibble 8..15 is dropped (R215). -/
def execFrameReservedHi (_t _lo : Nibble) (_rest : Bytes7) (s : State) : Result := whenLive s (completeOk (.ok s))

end Sys2Proof.Machine
end

