-- ==== Sys2Proof/Machine/Registry.lean ====
section
/-! DEFINITION. The registration commands (spec 41_registry.md R167 to R170). -/

namespace Sys2Proof.Machine

/-- `e.subs <- e.subs ++ [x]` for a registered service, or the status of the failed check: NOT_FOUND before MEMORY (R168). -/
def appendSub (sid : Byte) (x : SubEntry) (s : State) : Status × State :=
  match regFind sid s with
  | none => (.notFoundError, s)
  | some e =>
    if s.cfg.maxSubfunctions ≤ e.subs.length then (.memoryError, s)
    else (.ok, { s with reg := putRow rowKey (sid, { e with subs := e.subs ++ [x] }) s.reg })

/-- The outputs of FIND_SERVICE (R169): `hflag, hid, prm3..prm0, nsubs`. -/
def serviceOutputs (e : ServiceEntry) : List Byte :=
  flagByte e.hasHandler :: e.hid :: (bytes32 e.param ++ [BitVec.ofNat 8 e.subs.length])

/-- REGISTER_SERVICE (R167): the whole entry is replaced, its sub-function list emptied. -/
def execRegisterService (sid hflag hid : Byte) (param : Word) (s : State) : Result :=
  whenIdle s (completeWith (regInsert sid ⟨hasHandler hflag, hid, param, []⟩ s))

/-- REGISTER_SUBFUNCTION (R168). -/
def execRegisterSubfunction (sid ssid hflag hid : Byte) (param : Word) (s : State) : Result :=
  whenIdle s (completeWith (appendSub sid ⟨ssid, hasHandler hflag, hid, param⟩ s))

/-- FIND_SERVICE (R169): admitted in every dispatch state. -/
def execFindService (key : Byte) (s : State) : Result :=
  whenLive s
    (match regFind key s with
    | none => complete .notFoundError 7 [] s
    | some e => complete .ok 7 (serviceOutputs e) s)

/-- REMOVE_SERVICE (R170). -/
def execRemoveService (key : Byte) (s : State) : Result := whenIdle s (completeWith (regRemove key s))

end Sys2Proof.Machine
end

