-- ==== Sys2Proof/Machine/Respond.lean ====
section
/-! DEFINITION. The Response Builder's commands (spec 44_response.md R280, R281), admitted in every dispatch state, and the refusal of a
reserved opcode (30_encoding.md R94). -/

namespace Sys2Proof.Machine

/-- RESPOND_POSITIVE (R280). -/
def execRespondPositive (s : State) : Result := whenLive s (completeWith (respondPositive s))

/-- RESPOND_NEGATIVE (R281): the code is sent unchanged. -/
def execRespondNegative (code : Byte) (s : State) : Result := whenLive s (completeWith (respondNegative code s))

/-- RESERVED_OPCODE (R94, R333): the block does nothing and returns no result packet. The refusal comes before every other check (R334). -/
def execReservedOpcode (op : Byte) (_s : State) : Result := .refused (.reservedOpcode op)

end Sys2Proof.Machine
end

