-- ==== Sys2Proof/Machine/Timer.lean ====
section
/-! DEFINITION. TICK, DISPATCH and HANDLER_RETURN (spec 43_timer_dispatch.md). A dispatch runs in phases: it suspends at a handler call and
HANDLER_RETURN resumes it (R242, R342). -/

namespace Sys2Proof.Machine

/-- TICK (R240): the operand does not reach the counter. -/
def execTick (_now : Word) (s : State) : Result := whenLive s (complete .ok 0 [] { s with tick := s.tick + 1 })

/-- The writes of step `Timeouts()` (R243): both tests are made on the state before either write, and neither reads what the other writes. -/
def timeouts (s : State) : State :=
  let t := if sessionExpired s then { s with sid := s.cfg.defaultSid, ssid := s.cfg.defaultSsid } else s
  if ncsExpired s then abort t else t

/-- Step `SubfunctionPhase()`, then `Finish()` unless it stops in a wait state (R248, R251). -/
def subfunctionPhase (s : State) : Except Fault State :=
  match regFind s.dispSid s with
  | none => .error .entryMissing
  | some e =>
    match findSub s.ssid e.subs with
    | none => .ok (finish (respondNegative s.cfg.nrcSfns s).2)
    | some x => if x.hasHandler then .ok (callHandler .subfunction x.hid x.param s) else .ok (finish s)

/-- Step `ServicePhase()` (R246) for the entry that Lookup found, and what follows it when it calls no handler. -/
def servicePhase (e : ServiceEntry) (s : State) : Except Fault State :=
  if e.hasHandler then .ok (callHandler .service e.hid e.param s) else subfunctionPhase s

/-- The dispatch takes the pending request (R244). -/
def takeRequest (s : State) : State := { s with active := .none }

/-- Lookup remembers which service it dispatches (R245). -/
def latchDispatched (s : State) : State := { s with dispSid := s.sid }

/-- A handler call has ended (R247, R249). -/
def endCall (s : State) : State := { s with busy := false, dispState := .idle }

/-- Step `Lookup()` (R245) and what follows it. -/
def lookupRequest (s : State) : Except Fault State :=
  match regFind s.sid s with
  | none => .ok (clearBuffers (respondNegative s.cfg.nrcSns s).2)
  | some e => servicePhase e (latchDispatched s)

/-- One dispatch (R242 to R246): timeouts, the pending request, the lookup. -/
def dispatchRequest (s : State) : Except Fault State :=
  if sessionExpired s then .ok (timeouts s)
  else if (timeouts s).active = .none then .ok (timeouts s)
  else lookupRequest (takeRequest (timeouts s))

/-- DISPATCH (R242). -/
def execDispatch (s : State) : Result := whenIdle s (completeOk (dispatchRequest s))

/-- The service handler has returned `c` (R247): the sub-function scan runs whatever it returned. -/
def serviceReturned (c : Byte) (s : State) : Except Fault State :=
  subfunctionPhase (endCall (translate c s))

/-- The sub-function handler has returned `c` (R249). -/
def subfunctionReturned (c : Byte) (s : State) : State := finish (endCall (translate c s))

/-- HANDLER_RETURN (R252). -/
def execHandlerReturn (code : Byte) (s : State) : Result :=
  whenLive s
    (match s.dispState with
    | .idle => .fault .noHandlerCall
    | .waitService => completeOk (serviceReturned code s)
    | .waitSub => completeOk (.ok (subfunctionReturned code s)))

end Sys2Proof.Machine
end

