-- ==== Sys2Proof/Machine/Dispatch.lean ====
section
/-! DEFINITION. One arm per row of spec/opcode_table.json. -/

namespace Sys2Proof.Machine

def exec (i : Instr) (s : State) : Host.Outcome State Fault Refusal :=
  match i with
  -- wire frame kinds
  | .frameSf len p => Sys2Proof.Machine.execFrameSf len p s
  | .frameFf total p => Sys2Proof.Machine.execFrameFf total p s
  | .frameCf sn p => Sys2Proof.Machine.execFrameCf sn p s
  | .frameFc fs bs st rsv => Sys2Proof.Machine.execFrameFc fs bs st rsv s
  | .frameReserved t lo rest => Sys2Proof.Machine.execFrameReserved t lo rest s
  | .frameReservedHi t lo rest => Sys2Proof.Machine.execFrameReservedHi t lo rest s
  -- Frame Codec
  | .packSf len p => Sys2Proof.Machine.execPackSf len p s
  | .unpackSf f => Sys2Proof.Machine.execUnpackSf f s
  | .packFf total p => Sys2Proof.Machine.execPackFf total p s
  | .unpackFf f => Sys2Proof.Machine.execUnpackFf f s
  | .packCf len sn p => Sys2Proof.Machine.execPackCf len sn p s
  | .unpackCf f => Sys2Proof.Machine.execUnpackCf f s
  | .packFc bs st fs => Sys2Proof.Machine.execPackFc bs st fs s
  | .unpackFc f => Sys2Proof.Machine.execUnpackFc f s
  -- Keyed Registry
  | .registerService sid hflag hid param => Sys2Proof.Machine.execRegisterService sid hflag hid param s
  | .registerSubfunction sid ssid hflag hid param => Sys2Proof.Machine.execRegisterSubfunction sid ssid hflag hid param s
  | .findService key => Sys2Proof.Machine.execFindService key s
  | .removeService key => Sys2Proof.Machine.execRemoveService key s
  -- Diagnostic Engine
  | .init => Sys2Proof.Machine.execInit s
  | .delete => Sys2Proof.Machine.execDelete s
  | .receiveFrame f => Sys2Proof.Machine.execReceiveFrame f s
  | .tick now => Sys2Proof.Machine.execTick now s
  | .dispatch => Sys2Proof.Machine.execDispatch s
  | .handlerReturn code => Sys2Proof.Machine.execHandlerReturn code s
  | .readState => Sys2Proof.Machine.execReadState s
  | .readBuf off => Sys2Proof.Machine.execReadBuf off s
  -- Response Builder
  | .respondPositive => Sys2Proof.Machine.execRespondPositive s
  | .respondNegative code => Sys2Proof.Machine.execRespondNegative code s
  | .reservedOpcode op => Sys2Proof.Machine.execReservedOpcode op s

end Sys2Proof.Machine
end

