-- ==== Sys2Proof/Machine/Step.lean ====
section
/-! DEFINITION. One step: the block executes the oldest input the host has presented (spec 20_memory.md R67, R69, 60_exceptions.md R334). -/

namespace Sys2Proof.Machine

/-- One step. A stopped run stays stopped (R42, R330, R333). With nothing presented the block is idle and keeps all state (R349). Otherwise
the oldest input is decoded, a malformed packet being refused (R94), and executed on the state that has taken it. -/
def step (s : State) : Host.Outcome State Fault Refusal :=
  match stopped s with
  | some r => r
  | none =>
    match s.input with
    | [] => .next s
    | x :: _ =>
      match decode x with
      | .error why => .refused (.malformedPacket why)
      | .ok i => exec i (takeInput s)

/-- The state with the instruction of a table word presented as the oldest input, so that the next step runs it (assumption 12). -/
def State.withFetchWord (s : State) (nbits w : Nat) : State := { s with input := tableInput nbits w :: s.input }

end Sys2Proof.Machine
end

