-- ==== Sys2Proof/Machine/Pseudo.lean ====
section
/-! DEFINITION. The pseudo-commands of spec 30_encoding.md R99: bulk registration, as the host expands it into single commands. No opcode selects
them; an entry registered before the failing one stays registered. -/

namespace Sys2Proof.Machine

/-- One tuple of BULK_REGISTER_SERVICES. -/
structure ServiceTuple where
  sid : Byte
  hflag : Byte
  hid : Byte
  param : Word
  deriving DecidableEq, Repr

/-- One tuple of BULK_REGISTER_SUBFUNCTIONS. -/
structure SubTuple where
  ssid : Byte
  hflag : Byte
  hid : Byte
  param : Word
  deriving DecidableEq, Repr

/-- The last command returned a result packet whose status is OK. -/
def lastOk (s : State) : Bool :=
  match s.trace.getLast? with
  | some (.result (st :: _)) => decide (st = Status.ok.code)
  | _ => false

/-- BULK_REGISTER_SERVICES (R99): REGISTER_SERVICE for each tuple, stopping after the first status that is not OK. -/
def bulkRegisterServices : List ServiceTuple → State → Result
  | [], s => .next s
  | x :: xs, s =>
    match execRegisterService x.sid x.hflag x.hid x.param s with
    | .next t => if lastOk t then bulkRegisterServices xs t else .next t
    | r => r

/-- BULK_REGISTER_SUBFUNCTIONS (R99). -/
def bulkRegisterSubfunctions (sid : Byte) : List SubTuple → State → Result
  | [], s => .next s
  | x :: xs, s =>
    match execRegisterSubfunction sid x.ssid x.hflag x.hid x.param s with
    | .next t => if lastOk t then bulkRegisterSubfunctions sid xs t else .next t
    | r => r

end Sys2Proof.Machine
end

