-- ==== Sys2Proof/Safety.lean ====
section
/-! DEFINITION. What counts as a safe run (spec 70_reset_and_hazards.md R380), the state a run stops in (10_state.md R42), and the invariant of the
reachable states (10_state.md R35, R38; 44_response.md R284). -/

namespace Sys2Proof.Machine

/-- R380: the run has ended successfully: the host has issued its last command, no handler call is outstanding, no fault, no refusal. An
ill-formed configuration is refused (R7) and a refusal ends the run unsuccessfully (R333), whether or not a step has recorded it. DESIGN CHOICE
(assumption 19): R380 does not say whether a run of no command at all, which has no last command and no result packet, ends successfully, and
here it does, as in the state right after reset. -/
def State.runEnded (s : State) : Bool :=
  s.input.isEmpty && decide (s.dispState = .idle) && s.fault.isNone && !s.refused && s.cfg.wf

/-- The state after a step with the bookkeeping of R42: a fault or a refusal executes nothing and is recorded, never to be cleared. -/
def State.settle (s : State) : State :=
  match step s with
  | .next t => t
  | .fault k => { s with fault := some k }
  | .refused _ => { s with refused := true }

/-! ### Frames and commands, as the rules name them -/

/-- R87 (a): the one Flow-Control frame the block sends. -/
def ctsFrame : Frame := ⟨0x30, 0, 0, 0, 0, 0, 0, 0⟩

/-- R87 (b), R280: a positive response. -/
def positiveFrame (sid ssid : Byte) : Frame :=
  if ssid = 0 then ⟨0x01, sid + 0x40, 0, 0, 0, 0, 0, 0⟩ else ⟨0x02, sid + 0x40, ssid, 0, 0, 0, 0, 0⟩

/-- R87 (c), R281: a negative response. -/
def negativeFrame (sid code : Byte) : Frame := ⟨0x03, 0x7F, sid, code, 0, 0, 0, 0⟩

/-- The wire frames the block may transmit (R87, R286). -/
def transmittable (f : Frame) : Prop :=
  f = ctsFrame ∨ (∃ sid ssid : Byte, f = positiveFrame sid ssid) ∨ (∃ sid code : Byte, f = negativeFrame sid code)

/-- The eight codec commands (R120). -/
def isCodec : Instr → Bool
  | .packSf _ _ | .unpackSf _ | .packFf _ _ | .unpackFf _ | .packCf _ _ _ | .unpackCf _ | .packFc _ _ _ | .unpackFc _ => true
  | .frameSf _ _ | .frameFf _ _ | .frameCf _ _ | .frameFc _ _ _ _ | .frameReserved _ _ _ | .frameReservedHi _ _ _
  | .registerService _ _ _ _ | .registerSubfunction _ _ _ _ _ | .findService _ | .removeService _
  | .init | .delete | .receiveFrame _ | .tick _ | .dispatch | .handlerReturn _ | .readState | .readBuf _
  | .respondPositive | .respondNegative _ | .reservedOpcode _ => false

/-- The engine commands of R331 (a wire row is a RECEIVE_FRAME). -/
def isEngineCommand : Instr → Bool
  | .reservedOpcode _ => false
  | i => !isCodec i

/-- The commands R332 does not admit while a handler call is outstanding, INIT apart. -/
def needsIdle : Instr → Bool
  | .registerService _ _ _ _ | .registerSubfunction _ _ _ _ _ | .removeService _ | .delete | .dispatch => true
  | .packSf _ _ | .unpackSf _ | .packFf _ _ | .unpackFf _ | .packCf _ _ _ | .unpackCf _ | .packFc _ _ _ | .unpackFc _
  | .frameSf _ _ | .frameFf _ _ | .frameCf _ _ | .frameFc _ _ _ _ | .frameReserved _ _ _ | .frameReservedHi _ _ _
  | .findService _ | .init | .receiveFrame _ | .tick _ | .handlerReturn _ | .readState | .readBuf _
  | .respondPositive | .respondNegative _ | .reservedOpcode _ => false

/-- The commands R65 says leave all state unchanged. -/
def isRead : Instr → Bool
  | .readState | .readBuf _ | .findService _ => true
  | i => isCodec i

/-- The instruction takes a frame in: RECEIVE_FRAME of it, or its wire row. -/
def takesIn (i : Instr) (f : Frame) : Prop := i = .receiveFrame f ∨ i = decodeFrame f

/-! ### The invariant -/

/-- The buffer is in canonical form and holds only offsets below `REASM_CAPACITY` (R34, R68). -/
def bufferInv (s : State) : Prop := Memory.wf s.reasmBuf = true ∧ Memory.below s.cfg.reasmCapacity s.reasmBuf = true

/-- R35: the reassembly's state against its counters, its timer and its buffer. -/
def reassemblyInv (s : State) : Prop :=
  (s.ncsActive = true ↔ s.reasmState = .receiving) ∧
  match s.reasmState with
  | .idle => s.reasmTotal = 0 ∧ s.reasmRecv = 0 ∧ s.reasmExpSn = 0 ∧ s.reasmBuf = []
  | .receiving =>
    8 ≤ s.reasmTotal.toNat ∧ s.reasmTotal.toNat ≤ s.cfg.reasmCapacity ∧ s.reasmRecv.toNat < s.reasmTotal.toNat ∧
      ∃ k : Nat, s.reasmRecv.toNat = 6 + 7 * k ∧ s.reasmExpSn.toNat = (1 + k) % 16
  | .complete => s.reasmRecv = s.reasmTotal ∧ 8 ≤ s.reasmTotal.toNat ∧ s.reasmTotal.toNat ≤ s.cfg.reasmCapacity

/-- The chains hold exactly the registered keys, each once and in its bucket (R37, R39, R160). -/
def chainsInv (s : State) : Prop :=
  s.regChains.length = s.cfg.bucketCount ∧
  ∀ b : Nat, ∀ chain : List Byte, s.regChains[b]? = some chain →
    chain.Nodup ∧ ∀ k : Byte, k ∈ chain ↔ (regFind k s).isSome ∧ bucketOf s.cfg.bucketCount k = b

/-- R37, R38, R51: one entry a key, the capacity accounting, the sub-function limit, the chains. -/
def registryInv (s : State) : Prop :=
  0 < s.cfg.bucketCount ∧ s.regRemaining + s.reg.length = s.cfg.maxServices ∧
  (∀ r ∈ s.reg, r.2.subs.length ≤ s.cfg.maxSubfunctions) ∧ chainsInv s

/-- R26, R40, R41, R284: busy exactly while a handler call is outstanding, and then the dispatched id is the latched one and is registered. -/
def dispatchInv (s : State) : Prop :=
  (s.busy = true ↔ s.dispState ≠ .idle) ∧
  (s.dispState ≠ .idle → s.dispSid = s.sid ∧ (regFind s.dispSid s).isSome = true)

/-- The invariant of every reachable state. What the spec leaves unspecified while the engine is not live (R46) is left free. -/
def State.Inv (s : State) : Prop :=
  bufferInv s ∧ rowsRise rowKey s.reg = true ∧ (s.live = false → s.dispState = .idle) ∧
  (s.live = true → reassemblyInv s ∧ registryInv s ∧ dispatchInv s)

end Sys2Proof.Machine
end

