-- ==== Sys2Proof/Certificates/Slice0/Obligations.lean ====
section
/-! DEFINITION. The statements for the provers, file by file of the spec. A next state is written `emit (.result packet) u`: the state `u` with the
command's result packet appended to the trace (R43, R93), so an equation with it is also the command's frame. -/

open Sys2Proof Sys2Proof.Machine

/-! ### 30_encoding.md: wire frames and command packets -/

/-- Decoding the encoding of a well-formed instruction gives it back, with every operand (R82 to R85, R88, R91, R92; the opcodes and packet
layouts are the spec's decision D2, the FC layout its decision D7; assumption 12 for the wire rows). -/
def Obligations.DecodeOfEncodeIsIdentity : Prop :=
  ∀ i : Instr, i.wf = true → decode (encode i) = .ok i

/-- Nothing of an accepted input is dropped: what decodes encodes to itself, a reserved opcode apart (its packet has no operands, R94). -/
def Obligations.EncodeOfDecodeIsIdentity : Prop :=
  (∀ (packet : List Byte) (i : Instr), decode (.command packet) = .ok i → (∀ op, i ≠ .reservedOpcode op) → encode i = .command packet) ∧
  (∀ f : Frame, encode (decodeFrame f) = .wire f) ∧
  (∀ (x : Input) (i : Instr), decode x = .ok i → i.wf = true)

/-- Words written out from the encodings of R82 to R85 and R91, R92, one or more of each family. -/
def Obligations.SpecWordsDecode : Prop :=
  decode (.command [0x01, 0x02, 0x10, 0x01, 0xAA, 0, 0, 0, 0]) = .ok (.packSf 2 ⟨0x10, 0x01, 0xAA, 0, 0, 0, 0⟩) ∧
  decode (.command [0x03, 0x0F, 0xFF, 1, 2, 3, 4, 5, 6]) = .ok (.packFf 4095 ⟨1, 2, 3, 4, 5, 6⟩) ∧
  decode (.command [0x11, 0x22, 0x05, 0x01, 0x07, 0xDE, 0xAD, 0xBE, 0xEF]) = .ok (.registerSubfunction 0x22 0x05 1 7 0xDEADBEEF) ∧
  decode (.command [0x23, 0x00, 0x00, 0x30, 0x39]) = .ok (.tick 12345) ∧
  decode (.command [0x27, 0x10, 0x00]) = .ok (.readBuf 0x1000) ∧
  decode (.command [0x31, 0x11]) = .ok (.respondNegative 0x11) ∧
  decode (.wire ⟨0x10, 0x14, 0x2E, 0xF1, 0x90, 0x41, 0x42, 0x43⟩) = .ok (.frameFf 20 ⟨0x2E, 0xF1, 0x90, 0x41, 0x42, 0x43⟩) ∧
  decode (.wire ⟨0x32, 0x00, 0x0A, 0, 0, 0, 0, 0⟩) = .ok (.frameFc 2 0 0x0A ⟨0, 0, 0, 0, 0⟩)

/-- R94, R333: exactly the listed opcodes select no command, and the step that meets one is refused whatever state the block is in; a packet
of another length than its opcode's is not decoded (R95). An empty packet has no opcode (assumption 13, the model's). -/
def Obligations.ReservedAndMalformedPacketsRejected : Prop :=
  (∀ (op : Byte) (rest : List Byte), decode (.command (op :: rest)) = .ok (.reservedOpcode op) ↔ isReservedOpcode op = true) ∧
  (∀ (op : Byte) (s : State), exec (.reservedOpcode op) s = .refused (.reservedOpcode op)) ∧
  (∀ op : Byte, packetLength op = none ↔ isReservedOpcode op = true) ∧
  (∀ (op : Byte) (rest : List Byte) (n : Nat), packetLength op = some n →
    (rest.length + 1 ≠ n → decode (.command (op :: rest)) = .error (.wrongLength op)) ∧
    (rest.length + 1 = n → ∃ i, decode (.command (op :: rest)) = .ok i)) ∧
  decode (.command []) = .error .noOpcode

/-- R81: classification of a frame by its type nibble. -/
def Obligations.FramesClassifiedByTypeNibble : Prop :=
  ∀ f : Frame,
    (f.f0.toNat / 16 = 0 → decodeFrame f = .frameSf (loNibble f.f0) ⟨f.f1, f.f2, f.f3, f.f4, f.f5, f.f6, f.f7⟩) ∧
    (f.f0.toNat / 16 = 1 → ∃ t : Len12, t.toNat = f.f0.toNat % 16 * 256 + f.f1.toNat ∧
      decodeFrame f = .frameFf t ⟨f.f2, f.f3, f.f4, f.f5, f.f6, f.f7⟩) ∧
    (f.f0.toNat / 16 = 2 → decodeFrame f = .frameCf (loNibble f.f0) ⟨f.f1, f.f2, f.f3, f.f4, f.f5, f.f6, f.f7⟩) ∧
    (f.f0.toNat / 16 = 3 → decodeFrame f = .frameFc (loNibble f.f0) f.f1 f.f2 ⟨f.f3, f.f4, f.f5, f.f6, f.f7⟩) ∧
    (4 ≤ f.f0.toNat / 16 → f.f0.toNat / 16 ≤ 7 →
      decodeFrame f = .frameReserved (hiNibble f.f0) (loNibble f.f0) ⟨f.f1, f.f2, f.f3, f.f4, f.f5, f.f6, f.f7⟩) ∧
    (8 ≤ f.f0.toNat / 16 →
      decodeFrame f = .frameReservedHi (hiNibble f.f0) (loNibble f.f0) ⟨f.f1, f.f2, f.f3, f.f4, f.f5, f.f6, f.f7⟩)

/-! ### The step -/

/-- A step runs the decoded instruction: the oldest input, on the state that has taken it (R69, R334; the queue is assumption 1). -/
def Obligations.StepRunsDecodedInstruction : Prop :=
  ∀ (s : State) (x : Input) (rest : List Input) (i : Instr),
    s.fault = none → s.refused = false → s.cfg.wf = true → s.input = x :: rest → decode x = .ok i →
      step s = exec i { s with input := rest }

/-- What a step does when it runs no instruction: a stopped run stays stopped, an ill-formed configuration and a malformed packet are refused
(R42, R94, R330, R333), and with nothing presented the block keeps all state (R349; assumption 14). -/
def Obligations.StepWithoutInstruction : Prop :=
  (∀ (s : State) (k : Fault), s.fault = some k → step s = .fault k) ∧
  (∀ s : State, s.fault = none → s.refused = true → step s = .refused .alreadyRefused) ∧
  (∀ s : State, s.fault = none → s.refused = false → s.cfg.wf = false → step s = .refused .illFormedConfig) ∧
  (∀ s : State, s.fault = none → s.refused = false → s.cfg.wf = true → s.input = [] → step s = .next s) ∧
  (∀ (s : State) (x : Input) (rest : List Input) (e : DecodeError),
    s.fault = none → s.refused = false → s.cfg.wf = true → s.input = x :: rest → decode x = .error e →
      step s = .refused (.malformedPacket e))

/-- A fault or a refusal executes nothing, is recorded, and no later step clears it or goes on (R42, R330, R333). -/
def Obligations.FaultsAndRefusalsAreFinal : Prop :=
  ∀ s : State,
    (∀ k : Fault, step s = .fault k → s.settle = { s with fault := some k } ∧ step s.settle = .fault k ∧ s.settle.settle = s.settle) ∧
    (∀ r : Refusal, step s = .refused r →
      s.settle = { s with refused := true } ∧ (∃ q, step s.settle = .refused q) ∧ s.settle.settle = s.settle)

/-- A frame on the wire is the command RECEIVE_FRAME of it, in every state (R3, R66; that wire frames have a port of their own is the model's,
assumption 2). -/
def Obligations.WireFrameIsReceiveFrame : Prop :=
  ∀ (f : Frame) (s : State), exec (decodeFrame f) s = exec (.receiveFrame f) s

/-! ### 40_codec.md -/

/-- R121. -/
def Obligations.PackSfResult : Prop :=
  ∀ (len : Byte) (p : Bytes7) (s : State),
    decode (.command (0x01 :: len :: p.toList)) = .ok (.packSf len p) ∧
    (1 ≤ len.toNat → len.toNat ≤ 7 →
      exec (.packSf len p) s =
        .next (emit (.result ([0x00, len] ++ p.toList.take len.toNat ++ List.replicate (7 - len.toNat) 0)) s)) ∧
    (len.toNat = 0 ∨ 8 ≤ len.toNat → exec (.packSf len p) s = .next (emit (.result (0x02 :: List.replicate 8 0)) s))

/-- R122: the type before the length; length 0 accepted; the seven bytes raw (the spec's decision D9). -/
def Obligations.UnpackSfResult : Prop :=
  ∀ (f : Frame) (s : State),
    decode (.command (0x02 :: f.toList)) = .ok (.unpackSf f) ∧
    exec (.unpackSf f) s = .next (emit (.result
      (if f.f0.toNat / 16 ≠ 0 then 0x03 :: List.replicate 8 0
       else if 7 < f.f0.toNat % 16 then 0x02 :: List.replicate 8 0
       else [0x00, BitVec.ofNat 8 (f.f0.toNat % 16), f.f1, f.f2, f.f3, f.f4, f.f5, f.f6, f.f7])) s)

/-- R123. -/
def Obligations.PackFfResult : Prop :=
  ∀ (h l : Byte) (total : Half) (p : Bytes6) (s : State), total.toNat = h.toNat * 256 + l.toNat →
    decode (.command (0x03 :: h :: l :: p.toList)) = .ok (.packFf total p) ∧
    (7 < total.toNat → total.toNat ≤ 4095 →
      exec (.packFf total p) s =
        .next (emit (.result ([0x00, BitVec.ofNat 8 (0x10 + total.toNat / 256), BitVec.ofNat 8 (total.toNat % 256)] ++ p.toList)) s)) ∧
    (total.toNat ≤ 7 ∨ 4096 ≤ total.toNat → exec (.packFf total p) s = .next (emit (.result (0x02 :: List.replicate 8 0)) s))

/-- R124. -/
def Obligations.UnpackFfResult : Prop :=
  ∀ (f : Frame) (s : State),
    decode (.command (0x04 :: f.toList)) = .ok (.unpackFf f) ∧
    exec (.unpackFf f) s = .next (emit (.result
      (if f.f0.toNat / 16 ≠ 1 then 0x03 :: List.replicate 8 0
       else if f.f0.toNat % 16 * 256 + f.f1.toNat < 8 then 0x02 :: List.replicate 8 0
       else [0x00, BitVec.ofNat 8 (f.f0.toNat % 16), f.f1, f.f2, f.f3, f.f4, f.f5, f.f6, f.f7])) s)

/-- R125: the length before the sequence number; zero padding is the spec's decision D8. -/
def Obligations.PackCfResult : Prop :=
  ∀ (len sn : Byte) (p : Bytes7) (s : State),
    decode (.command (0x05 :: len :: sn :: p.toList)) = .ok (.packCf len sn p) ∧
    exec (.packCf len sn p) s = .next (emit (.result
      (if len.toNat < 1 ∨ 7 < len.toNat then 0x02 :: List.replicate 8 0
       else if 15 < sn.toNat then 0x01 :: List.replicate 8 0
       else [0x00, BitVec.ofNat 8 (0x20 + sn.toNat)] ++ p.toList.take len.toNat ++ List.replicate (7 - len.toNat) 0)) s)

/-- R126: `FRAME_ERROR` is returned for no frame. -/
def Obligations.UnpackCfResult : Prop :=
  ∀ (f : Frame) (s : State),
    decode (.command (0x06 :: f.toList)) = .ok (.unpackCf f) ∧
    (f.f0.toNat / 16 ≠ 2 → exec (.unpackCf f) s = .next (emit (.result (0x03 :: List.replicate 8 0)) s)) ∧
    (f.f0.toNat / 16 = 2 → exec (.unpackCf f) s = .next (emit (.result
      [0x00, BitVec.ofNat 8 (f.f0.toNat % 16), f.f1, f.f2, f.f3, f.f4, f.f5, f.f6, f.f7]) s))

/-- R127: always OK; the flow status is cut to 4 bits (the spec's decision D7). -/
def Obligations.PackFcResult : Prop :=
  ∀ (bs st fs : Byte) (s : State),
    decode (.command [0x07, bs, st, fs]) = .ok (.packFc bs st fs) ∧
    exec (.packFc bs st fs) s =
      .next (emit (.result [0x00, BitVec.ofNat 8 (0x30 + fs.toNat % 16), bs, st, 0, 0, 0, 0, 0]) s)

/-- R128: any flow status and any reserved bytes pass (the spec's decision D10). -/
def Obligations.UnpackFcResult : Prop :=
  ∀ (f : Frame) (s : State),
    decode (.command (0x08 :: f.toList)) = .ok (.unpackFc f) ∧
    exec (.unpackFc f) s = .next (emit (.result
      (if f.f0.toNat / 16 ≠ 3 then 0x03 :: List.replicate 3 0 else [0x00, BitVec.ofNat 8 (f.f0.toNat % 16), f.f1, f.f2])) s)

/-- R129: the round-trip laws of the codec, both ways. -/
def Obligations.CodecRoundTrips : Prop :=
  (∀ (n : Byte) (p : Bytes7), 1 ≤ n.toNat → n.toNat ≤ 7 →
    ∃ F, packSingle n p = .ok F ∧ ∃ l q, unpackSingle F = .ok (l, q) ∧ l.toNat = n.toNat ∧
      q.toList = p.toList.take n.toNat ++ List.replicate (7 - n.toNat) 0) ∧
  (∀ (T : Half) (p : Bytes6), 8 ≤ T.toNat → T.toNat ≤ 4095 →
    ∃ F, packFirst T p = .ok F ∧ ∃ t, unpackFirst F = .ok (t, p) ∧ t.toNat = T.toNat) ∧
  (∀ (n sn : Byte) (p : Bytes7), 1 ≤ n.toNat → n.toNat ≤ 7 → sn.toNat ≤ 15 →
    ∃ F, packConsecutive n sn p = .ok F ∧ ∃ k q, unpackConsecutive F = .ok (k, q) ∧ k.toNat = sn.toNat ∧
      q.toList = p.toList.take n.toNat ++ List.replicate (7 - n.toNat) 0) ∧
  (∀ bs st fs : Byte, fs.toNat ≤ 15 → ∃ k, unpackFlowControl (packFlowControl bs st fs) = .ok (k, bs, st) ∧ k.toNat = fs.toNat) ∧
  (∀ (F : Frame) (l : Nibble) (p : Bytes7), unpackSingle F = .ok (l, p) → 1 ≤ l.toNat →
    p.toList = p.toList.take l.toNat ++ List.replicate (7 - l.toNat) 0 → packSingle (l.setWidth 8) p = .ok F) ∧
  (∀ (F : Frame) (t : Len12) (p : Bytes6), unpackFirst F = .ok (t, p) → packFirst (t.setWidth 16) p = .ok F) ∧
  (∀ (F : Frame) (k : Nibble) (p : Bytes7), unpackConsecutive F = .ok (k, p) → packConsecutive 7 (k.setWidth 8) p = .ok F) ∧
  (∀ (F : Frame) (k : Nibble) (bs st : Byte), unpackFlowControl F = .ok (k, bs, st) →
    F.f3 = 0 → F.f4 = 0 → F.f5 = 0 → F.f6 = 0 → F.f7 = 0 → packFlowControl bs st (k.setWidth 8) = F)

/-! ### 41_registry.md -/

/-- R162, R167: REGISTER_SERVICE completes: an update in place, a new entry that costs capacity and joins its chain, or MEMORY_ERROR with
nothing written; every other entry is as before. -/
def Obligations.RegisterServiceResult : Prop :=
  ∀ (sid hflag hid : Byte) (prm : Word) (s : State), s.live = true → s.dispState = .idle →
    (regFind sid s = none → s.regRemaining = 0 →
      exec (.registerService sid hflag hid prm) s = .next (emit (.result [0x05]) s)) ∧
    (regFind sid s ≠ none ∨ s.regRemaining ≠ 0 → ∃ u : State,
      exec (.registerService sid hflag hid prm) s = .next (emit (.result [0x00]) u) ∧
      (∀ k : Byte, regFind k u = if k = sid then some ⟨decide (hflag ≠ 0), hid, prm, []⟩ else regFind k s) ∧
      (regFind sid s ≠ none → u = { s with reg := u.reg }) ∧
      (regFind sid s = none → u = { s with
        reg := u.reg
        regRemaining := s.regRemaining - 1
        regChains := s.regChains.modify (bucketOf s.cfg.bucketCount sid) (fun chain => sid :: chain) }))

/-- R168: REGISTER_SUBFUNCTION completes: NOT_FOUND before MEMORY, else the entry is appended to the service's list. -/
def Obligations.RegisterSubfunctionResult : Prop :=
  ∀ (sid ssid hflag hid : Byte) (prm : Word) (s : State), s.live = true → s.dispState = .idle →
    (regFind sid s = none →
      exec (.registerSubfunction sid ssid hflag hid prm) s = .next (emit (.result [0x06]) s)) ∧
    (∀ e : ServiceEntry, regFind sid s = some e → s.cfg.maxSubfunctions ≤ e.subs.length →
      exec (.registerSubfunction sid ssid hflag hid prm) s = .next (emit (.result [0x05]) s)) ∧
    (∀ e : ServiceEntry, regFind sid s = some e → e.subs.length < s.cfg.maxSubfunctions → ∃ u : State,
      exec (.registerSubfunction sid ssid hflag hid prm) s = .next (emit (.result [0x00]) u) ∧
      u = { s with reg := u.reg } ∧
      (∀ k : Byte, regFind k u =
        if k = sid then some { e with subs := e.subs ++ [⟨ssid, decide (hflag ≠ 0), hid, prm⟩] } else regFind k s))

/-- R169: FIND_SERVICE reports an entry, in every dispatch state. -/
def Obligations.FindServiceResult : Prop :=
  ∀ (key : Byte) (s : State), s.live = true →
    (regFind key s = none → exec (.findService key) s = .next (emit (.result (0x06 :: List.replicate 7 0)) s)) ∧
    (∀ e : ServiceEntry, regFind key s = some e →
      exec (.findService key) s = .next (emit (.result
        [0x00, if e.hasHandler then 1 else 0, e.hid, BitVec.ofNat 8 (e.param.toNat / 2 ^ 24), BitVec.ofNat 8 (e.param.toNat / 2 ^ 16),
          BitVec.ofNat 8 (e.param.toNat / 2 ^ 8), BitVec.ofNat 8 e.param.toNat, BitVec.ofNat 8 e.subs.length]) s))

/-- R164, R170: REMOVE_SERVICE completes: NOT_FOUND, or the entry is gone, its capacity returned and its key out of its chain. -/
def Obligations.RemoveServiceResult : Prop :=
  ∀ (key : Byte) (s : State), s.live = true → s.dispState = .idle →
    (regFind key s = none → exec (.removeService key) s = .next (emit (.result [0x06]) s)) ∧
    (regFind key s ≠ none → ∃ u : State,
      exec (.removeService key) s = .next (emit (.result [0x00]) u) ∧
      (∀ k : Byte, regFind k u = if k = key then none else regFind k s) ∧
      u = { s with
        reg := u.reg
        regRemaining := s.regRemaining + 1
        regChains := s.regChains.modify (bucketOf s.cfg.bucketCount key) (fun chain => chain.filter (fun x => decide (x ≠ key))) })

/-- R166: the sub-function lookup finds the earliest entry with the id and none where no entry has it. -/
def Obligations.FindSubIsFirstMatch : Prop :=
  ∀ (i : Byte) (l : List SubEntry),
    (findSub i l = none ↔ ∀ x ∈ l, x.ssid ≠ i) ∧
    (∀ x : SubEntry, findSub i l = some x ↔ ∃ before after, l = before ++ x :: after ∧ x.ssid = i ∧ ∀ y ∈ before, y.ssid ≠ i)

/-- R39, R160: no command's outcome depends on the registry's chains, which only follow it. -/
def Obligations.RegistryChainsAreHidden : Prop :=
  ∀ (i : Instr) (s : State) (c : List (List Byte)),
    (∀ t, exec i s = .next t → ∃ c', exec i { s with regChains := c } = .next { t with regChains := c' }) ∧
    (∀ k, exec i s = .fault k → exec i { s with regChains := c } = .fault k) ∧
    (∀ r, exec i s = .refused r → exec i { s with regChains := c } = .refused r)

/-- R99: a bulk registration is the run of its single commands up to and including the first whose status is not OK, and a command that faults
ends it with that fault. That an empty list issues no command, so that a bulk whose commands all succeed ends in the state the last one left, is
the model's choice (assumption 17). On a live engine that is not waiting a bulk completes, and what was registered before it stays: every service,
and every sub-function of a service at its place in the list. -/
def Obligations.BulkRegistrationKeepsEntries : Prop :=
  (∀ s : State, bulkRegisterServices [] s = .next s) ∧
  (∀ (sid : Byte) (s : State), bulkRegisterSubfunctions sid [] s = .next s) ∧
  (∀ (x : ServiceTuple) (l : List ServiceTuple) (s : State),
    (∀ (u : State) (b : Byte), exec (.registerService x.sid x.hflag x.hid x.param) s = .next u → u.trace.getLast? = some (.result [b]) →
      bulkRegisterServices (x :: l) s = if b = 0x00 then bulkRegisterServices l u else .next u) ∧
    (∀ k : Fault, exec (.registerService x.sid x.hflag x.hid x.param) s = .fault k → bulkRegisterServices (x :: l) s = .fault k)) ∧
  (∀ (sid : Byte) (x : SubTuple) (l : List SubTuple) (s : State),
    (∀ (u : State) (b : Byte),
      exec (.registerSubfunction sid x.ssid x.hflag x.hid x.param) s = .next u → u.trace.getLast? = some (.result [b]) →
        bulkRegisterSubfunctions sid (x :: l) s = if b = 0x00 then bulkRegisterSubfunctions sid l u else .next u) ∧
    (∀ k : Fault, exec (.registerSubfunction sid x.ssid x.hflag x.hid x.param) s = .fault k →
      bulkRegisterSubfunctions sid (x :: l) s = .fault k)) ∧
  (∀ (l : List ServiceTuple) (s : State), s.live = true → s.dispState = .idle →
    ∃ t, bulkRegisterServices l s = .next t ∧ t.live = true ∧ t.dispState = .idle ∧
      ∀ k, (regFind k s).isSome = true → (regFind k t).isSome = true) ∧
  (∀ (sid : Byte) (l : List SubTuple) (s : State), s.live = true → s.dispState = .idle →
    ∃ t, bulkRegisterSubfunctions sid l s = .next t ∧ t.live = true ∧ t.dispState = .idle ∧
      ∀ (k : Byte) (e : ServiceEntry), regFind k s = some e →
        ∃ new : List SubEntry, regFind k t = some { e with subs := e.subs ++ new })

/-! ### 42_receive.md -/

/-- R201, R206: SingleFrame intake, as RECEIVE_FRAME and as its wire row: dropped with length above 7; answered BusyRepeatRequest with the
engine's own id while busy; otherwise latched. Length 0 and the id of the response are the spec's decisions D20 and D25. -/
def Obligations.SingleFrameIntake : Prop :=
  ∀ (len : Nibble) (p : Bytes7) (s : State) (i : Instr), s.live = true →
    takesIn i ⟨len.setWidth 8, p.b0, p.b1, p.b2, p.b3, p.b4, p.b5, p.b6⟩ →
    (7 < len.toNat → exec i s = .next (emit (.result [0x00]) s)) ∧
    (len.toNat ≤ 7 → s.busy = true →
      exec i s = .next (emit (.result [0x00]) (transmit (negativeFrame s.sid s.cfg.nrcBrr) s).2)) ∧
    (len.toNat ≤ 7 → s.busy = false →
      exec i s = .next (emit (.result [0x00])
        { s with
          lastActivity := s.tick
          rxBuf := p
          rxLen := BitVec.ofNat 3 len.toNat
          sid := p.b0
          ssid := if 2 ≤ len.toNat then p.b1 else 0
          active := .single }))

/-- R207 to R209: an FF that is dropped, or turned away by busy or by capacity; a reassembly in progress is answered RequestSequenceError and
aborted first, and the frame is then taken as if none had been running (the spec's decisions D21, D22, D25, D32). -/
def Obligations.FirstFrameTurnedAway : Prop :=
  ∀ (t : Len12) (p : Bytes6) (s : State) (i : Instr), s.live = true → takesIn i (Frame.first t p) →
    (t.toNat < 8 → exec i s = .next (emit (.result [0x00]) s)) ∧
    (8 ≤ t.toNat → s.reasmState ≠ .receiving → s.busy = true →
      exec i s = .next (emit (.result [0x00]) (transmit (negativeFrame s.sid s.cfg.nrcBrr) s).2)) ∧
    (8 ≤ t.toNat → s.reasmState = .receiving → s.busy = true →
      exec i s = .next (emit (.result [0x00]) (transmit (negativeFrame s.sid s.cfg.nrcBrr)
        (abort (transmit (negativeFrame s.sid s.cfg.nrcRse) s).2)).2)) ∧
    (s.cfg.reasmCapacity < t.toNat → 8 ≤ t.toNat → s.reasmState ≠ .receiving → s.busy = false →
      exec i s = .next (emit (.result [0x00])
        (abort (transmit (negativeFrame s.sid s.cfg.nrcRtl) { s with lastActivity := s.tick }).2))) ∧
    (8 ≤ t.toNat → s.reasmState = .receiving → exec i s = exec i (abort (transmit (negativeFrame s.sid s.cfg.nrcRse) s).2))

/-- R209: an FF that starts a reassembly, with the frame `F[0] = 0x10 + T / 256`, `F[1] = T % 256` (R83); while another is in progress it does
what it does after that one is answered and aborted (R207). Every byte from offset 6 on reads as before, and so does every field not named. -/
def Obligations.FirstFrameStartsReassembly : Prop :=
  ∀ (t : Len12) (p : Bytes6) (s : State) (i : Instr), s.live = true →
    takesIn i ⟨BitVec.ofNat 8 (0x10 + t.toNat / 256), BitVec.ofNat 8 (t.toNat % 256), p.b0, p.b1, p.b2, p.b3, p.b4, p.b5⟩ →
    8 ≤ t.toNat → t.toNat ≤ s.cfg.reasmCapacity → s.busy = false → ∃ (a : State) (m : List Host.Cell),
      (s.reasmState ≠ .receiving → a = s) ∧
      (s.reasmState = .receiving → a = abort (transmit (negativeFrame s.sid s.cfg.nrcRse) s).2) ∧
      (∀ o : Nat, o < 6 → Memory.read m o = p.toList.getD o 0) ∧
      (∀ o : Nat, 6 ≤ o → Memory.read m o = Memory.read a.reasmBuf o) ∧
      exec i s = .next (emit (.result [0x00])
        { (transmit ctsFrame
            { a with
              lastActivity := s.tick
              reasmBuf := m
              reasmTotal := t
              reasmRecv := 6
              reasmExpSn := 1
              reasmState := .receiving
              sid := p.b0
              ssid := if s.cfg.ffLatchesSsid then p.b1 else s.ssid }).2 with
          ncsActive := true
          ncsMark := s.tick })

/-- R210 to R212: a CF is ignored unless a reassembly is in progress; out of sequence it resets the session timer, aborts and is answered
RequestSequenceError once. -/
def Obligations.ConsecutiveFrameRejected : Prop :=
  ∀ (sn : Nibble) (p : Bytes7) (s : State) (i : Instr), s.live = true →
    takesIn i ⟨BitVec.ofNat 8 (0x20 + sn.toNat), p.b0, p.b1, p.b2, p.b3, p.b4, p.b5, p.b6⟩ →
    (s.reasmState ≠ .receiving → exec i s = .next (emit (.result [0x00]) s)) ∧
    (s.reasmState = .receiving → sn ≠ s.reasmExpSn →
      exec i s = .next (emit (.result [0x00])
        (transmit (negativeFrame s.sid s.cfg.nrcRse) (abort { s with lastActivity := s.tick })).2))

/-- R211, R213: a CF in sequence: `n = min(7, remaining)` bytes at the receive offset, the counters, and completion or the N_Cs restart. Bytes
outside the stored ones read as before, and every field not named is unchanged. The hypotheses on the counters hold in every state of the
invariant (R35). -/
def Obligations.ConsecutiveFrameAccepted : Prop :=
  ∀ (sn : Nibble) (p : Bytes7) (s : State) (i : Instr), s.live = true →
    takesIn i ⟨BitVec.ofNat 8 (0x20 + sn.toNat), p.b0, p.b1, p.b2, p.b3, p.b4, p.b5, p.b6⟩ →
    s.reasmState = .receiving → sn = s.reasmExpSn → s.reasmRecv.toNat < s.reasmTotal.toNat →
    s.reasmTotal.toNat ≤ s.cfg.reasmCapacity → ∃ (n : Nat) (u : State),
      n = min 7 (s.reasmTotal.toNat - s.reasmRecv.toNat) ∧
      exec i s = .next (emit (.result [0x00]) u) ∧
      (∀ o : Nat, o < n → Memory.read u.reasmBuf (s.reasmRecv.toNat + o) = p.toList.getD o 0) ∧
      (∀ o : Nat, o < s.reasmRecv.toNat ∨ s.reasmRecv.toNat + n ≤ o → Memory.read u.reasmBuf o = Memory.read s.reasmBuf o) ∧
      u.reasmRecv.toNat = s.reasmRecv.toNat + n ∧
      u.reasmExpSn.toNat = (s.reasmExpSn.toNat + 1) % 16 ∧
      (s.reasmRecv.toNat + n = s.reasmTotal.toNat →
        u.reasmState = .complete ∧ u.active = .multi ∧ u.ncsActive = false ∧ u.ncsMark = s.ncsMark) ∧
      (s.reasmRecv.toNat + n ≠ s.reasmTotal.toNat →
        u.reasmState = .receiving ∧ u.active = s.active ∧ u.ncsActive = s.ncsActive ∧
          u.ncsMark = if s.cfg.ncsRestartOnCf then s.tick else s.ncsMark) ∧
      u = { s with
        lastActivity := s.tick
        reasmBuf := u.reasmBuf
        reasmRecv := u.reasmRecv
        reasmExpSn := u.reasmExpSn
        reasmState := u.reasmState
        active := u.active
        ncsActive := u.ncsActive
        ncsMark := u.ncsMark }

/-- R214, R215: a FlowControl frame of any status and a frame of a reserved type nibble change nothing, reset no timer and send nothing
(the spec's decisions D10 and D54). -/
def Obligations.OtherFramesDoNothing : Prop :=
  ∀ (f : Frame) (s : State) (i : Instr), s.live = true → takesIn i f → 3 ≤ f.f0.toNat / 16 →
    exec i s = .next (emit (.result [0x00]) s)

/-- R218: every transition of the reassembly state and of the active request on a live engine: each clause names the only instructions that reach
a value from another one, and the conditions of R218's row on the frame and on the state before. A DISPATCH or HANDLER_RETURN that reaches
ClearBuffers (R245, R251) is one that calls no handler. -/
def Obligations.ReassemblyAndRequestTransitions : Prop :=
  ∀ (i : Instr) (s t : State), s.live = true → i ≠ .delete → exec i s = .next t →
    (t.reasmState = .receiving → s.reasmState ≠ .receiving →
      s.busy = false ∧ ∃ f, takesIn i f ∧ f.f0.toNat / 16 = 1 ∧
        8 ≤ f.f0.toNat % 16 * 256 + f.f1.toNat ∧ f.f0.toNat % 16 * 256 + f.f1.toNat ≤ s.cfg.reasmCapacity) ∧
    (t.reasmState = .complete → s.reasmState ≠ .complete →
      s.reasmState = .receiving ∧ t.active = .multi ∧ s.reasmRecv.toNat < s.reasmTotal.toNat ∧
        s.reasmTotal.toNat ≤ s.reasmRecv.toNat + 7 ∧ ∃ f, takesIn i f ∧ f.f0.toNat / 16 = 2 ∧ loNibble f.f0 = s.reasmExpSn) ∧
    (t.reasmState = .idle → s.reasmState ≠ .idle →
      (i = .dispatch ∧ s.dispState = .idle ∧ (ncsExpired s = true ∨
        (sessionExpired s = false ∧ s.active ≠ .none ∧
          ∀ e, regFind s.sid s = some e → e.hasHandler = false ∧ ∀ x, findSub s.ssid e.subs = some x → x.hasHandler = false))) ∨
      ((∃ c, i = .handlerReturn c) ∧ (s.dispState = .waitSub ∨
        (s.dispState = .waitService ∧
          ∀ e, regFind s.dispSid s = some e → ∀ x, findSub s.ssid e.subs = some x → x.hasHandler = false))) ∨
      (∃ f, takesIn i f ∧ f.f0.toNat / 16 = 1 ∧ 8 ≤ f.f0.toNat % 16 * 256 + f.f1.toNat ∧
        ((s.busy = true ∧ s.reasmState = .receiving) ∨
          (s.busy = false ∧ s.cfg.reasmCapacity < f.f0.toNat % 16 * 256 + f.f1.toNat))) ∨
      (s.reasmState = .receiving ∧ ∃ f, takesIn i f ∧ f.f0.toNat / 16 = 2 ∧ loNibble f.f0 ≠ s.reasmExpSn)) ∧
    (t.active = .single → s.active ≠ .single →
      s.busy = false ∧ ∃ f, takesIn i f ∧ f.f0.toNat / 16 = 0 ∧ f.f0.toNat % 16 ≤ 7) ∧
    (t.active = .multi → s.active ≠ .multi →
      s.reasmState = .receiving ∧ t.reasmState = .complete ∧ ∃ f, takesIn i f ∧ f.f0.toNat / 16 = 2) ∧
    (t.active = .none → s.active ≠ .none → i = .dispatch ∧ s.dispState = .idle ∧ sessionExpired s = false)

/-! ### 43_timer_dispatch.md -/

/-- R240, R27: TICK advances the counter by one modulo 2^32 and ignores its operand (the spec's decision D14), in every dispatch state; no other
command of a live engine writes it (DELETE leaves it unspecified, R46). -/
def Obligations.TickAdvancesCounter : Prop :=
  (∀ (now : Word) (s : State), s.live = true →
    exec (.tick now) s = .next (emit (.result [0x00]) { s with tick := BitVec.ofNat 32 ((s.tick.toNat + 1) % 2 ^ 32) })) ∧
  (∀ (i : Instr) (s t : State), s.live = true → i ≠ .delete → (∀ now, i ≠ .tick now) → exec i s = .next t → t.tick = s.tick)

/-- R241, R243, R244: a DISPATCH whose session has expired resets the ids and dispatches nothing; the N_Cs test is made all the same (the
spec's decisions D16, D17); with nothing pending it makes the N_Cs test only. Whatever is pending, a DISPATCH with the N_Cs timeout elapsed does
what it does from the aborted reassembly. Elapsed ticks are counted modulo 2^32 (D14). -/
def Obligations.DispatchTimeoutsAndNothingPending : Prop :=
  ∀ (s u : State), s.live = true → s.dispState = .idle →
    u = (if s.ncsActive = true ∧ s.cfg.ncsTimeout.toNat ≤ (s.tick.toNat + 2 ^ 32 - s.ncsMark.toNat) % 2 ^ 32 then abort s else s) →
    (s.cfg.sessionTimeout.toNat ≤ (s.tick.toNat + 2 ^ 32 - s.lastActivity.toNat) % 2 ^ 32 →
      exec .dispatch s = .next (emit (.result [0x00]) { u with sid := s.cfg.defaultSid, ssid := s.cfg.defaultSsid })) ∧
    ((s.tick.toNat + 2 ^ 32 - s.lastActivity.toNat) % 2 ^ 32 < s.cfg.sessionTimeout.toNat → s.active = .none →
      exec .dispatch s = .next (emit (.result [0x00]) u)) ∧
    exec .dispatch s = exec .dispatch u

/-- R244, R245: a pending request for a service that is not registered is taken, answered ServiceNotSupported, and the buffers cleared. -/
def Obligations.DispatchUnregisteredService : Prop :=
  ∀ s : State, s.live = true → s.dispState = .idle → sessionExpired s = false → ncsExpired s = false → s.active ≠ .none →
    regFind s.sid s = none →
      exec .dispatch s = .next (emit (.result [0x00])
        (clearBuffers (transmit (negativeFrame s.sid s.cfg.nrcSns) { s with active := .none }).2))

/-- R244 to R246, R250: a pending request for a service with a handler is taken and its handler called; the block waits, busy. -/
def Obligations.DispatchCallsServiceHandler : Prop :=
  ∀ (s : State) (e : ServiceEntry), s.live = true → s.dispState = .idle → sessionExpired s = false → ncsExpired s = false →
    s.active ≠ .none → regFind s.sid s = some e → e.hasHandler = true →
      exec .dispatch s = .next (emit (.result [0x00])
        { s with
          active := .none
          dispSid := s.sid
          busy := true
          dispState := .waitService
          trace := s.trace ++ [.hcall .service s.sid s.ssid e.hid e.param] })

/-- R246, R248, R251: a pending request for a service without a handler goes on to the sub-function: called, found without a handler and
finished, or answered SubfunctionNotSupported and finished. -/
def Obligations.DispatchSubfunctionPhase : Prop :=
  ∀ (s : State) (e : ServiceEntry), s.live = true → s.dispState = .idle → sessionExpired s = false → ncsExpired s = false →
    s.active ≠ .none → regFind s.sid s = some e → e.hasHandler = false →
    (∀ x, findSub s.ssid e.subs = some x → x.hasHandler = true →
      exec .dispatch s = .next (emit (.result [0x00])
        { s with
          active := .none
          dispSid := s.sid
          busy := true
          dispState := .waitSub
          trace := s.trace ++ [.hcall .subfunction s.sid s.ssid x.hid x.param] })) ∧
    (∀ x, findSub s.ssid e.subs = some x → x.hasHandler = false →
      exec .dispatch s = .next (emit (.result [0x00]) (clearBuffers { s with active := .none, dispSid := s.sid }))) ∧
    (findSub s.ssid e.subs = none →
      exec .dispatch s = .next (emit (.result [0x00])
        (clearBuffers (transmit (negativeFrame s.sid s.cfg.nrcSfns) { s with active := .none, dispSid := s.sid }).2)))

/-- R247, R248, R251, R282: HANDLER_RETURN of a service handler: the response its code asks for, then the sub-function phase, whatever the
code (the spec's decision D51). -/
def Obligations.ServiceHandlerReturn : Prop :=
  ∀ (c : Byte) (s r : State) (e : ServiceEntry), s.live = true → s.dispState = .waitService → regFind s.dispSid s = some e →
    r = (if c = s.cfg.hrSuccess then (transmit (positiveFrame s.sid s.ssid) s).2
         else if c = s.cfg.hrNoResponse then s else (transmit (negativeFrame s.sid c) s).2) →
    (∀ x, findSub s.ssid e.subs = some x → x.hasHandler = true →
      exec (.handlerReturn c) s = .next (emit (.result [0x00])
        { r with
          busy := true
          dispState := .waitSub
          trace := r.trace ++ [.hcall .subfunction s.dispSid s.ssid x.hid x.param] })) ∧
    (∀ x, findSub s.ssid e.subs = some x → x.hasHandler = false →
      exec (.handlerReturn c) s = .next (emit (.result [0x00]) (clearBuffers { r with busy := false, dispState := .idle }))) ∧
    (findSub s.ssid e.subs = none →
      exec (.handlerReturn c) s = .next (emit (.result [0x00])
        (clearBuffers (transmit (negativeFrame s.sid s.cfg.nrcSfns) { r with busy := false, dispState := .idle }).2)))

/-- R249, R251, R282: HANDLER_RETURN of a sub-function handler: the response its code asks for, then the dispatch ends. -/
def Obligations.SubfunctionHandlerReturn : Prop :=
  ∀ (c : Byte) (s r : State), s.live = true → s.dispState = .waitSub →
    r = (if c = s.cfg.hrSuccess then (transmit (positiveFrame s.sid s.ssid) s).2
         else if c = s.cfg.hrNoResponse then s else (transmit (negativeFrame s.sid c) s).2) →
      exec (.handlerReturn c) s = .next (emit (.result [0x00]) (clearBuffers { r with busy := false, dispState := .idle }))

/-! ### 44_response.md -/

/-- R280, R285: RESPOND_POSITIVE: one attempt with the latched ids, recorded with its answer, whose failure is TRANSMIT_ERROR; without a
capability TRANSMIT_ERROR and no event. The byte wraps at 0xC0 (the spec's decision D26). The answer is a free input (assumption 6). -/
def Obligations.RespondPositiveResult : Prop :=
  ∀ s : State, s.live = true →
    (s.cfg.txPresent = false → exec .respondPositive s = .next (emit (.result [0x08]) s)) ∧
    (s.cfg.txPresent = true →
      exec .respondPositive s =
        .next (emit (.result [if nextAnswer s = .ok then 0x00 else 0x08])
          (emit (.tx (positiveFrame s.sid s.ssid) (nextAnswer s)) (takeAnswer s)))) ∧
    (∀ a rest, s.txAnswers = a :: rest → nextAnswer s = a ∧ takeAnswer s = { s with txAnswers := rest })

/-- R281, R285: RESPOND_NEGATIVE: every code is sent unchanged. -/
def Obligations.RespondNegativeResult : Prop :=
  ∀ (code : Byte) (s : State), s.live = true →
    (s.cfg.txPresent = false → exec (.respondNegative code) s = .next (emit (.result [0x08]) s)) ∧
    (s.cfg.txPresent = true →
      exec (.respondNegative code) s =
        .next (emit (.result [if nextAnswer s = .ok then 0x00 else 0x08])
          (emit (.tx (negativeFrame s.sid code) (nextAnswer s)) (takeAnswer s))))

/-- R284: while a handler call is outstanding and stays so, no command changes the latched ids or the dispatched one. -/
def Obligations.IdsStableDuringHandlerCall : Prop :=
  ∀ (i : Instr) (s t : State), s.live = true → s.busy = true → s.dispState ≠ .idle → exec i s = .next t →
    t.sid = s.sid ∧ t.ssid = s.ssid ∧ t.dispSid = s.dispSid

/-- R87, R286: the trace only grows, and every frame a command transmits is the Flow-Control frame, a positive or a negative response. -/
def Obligations.OnlyThreeKindsTransmitted : Prop :=
  ∀ (i : Instr) (s t : State), exec i s = .next t →
    ∃ new : List Event, t.trace = s.trace ++ new ∧ ∀ f a, Event.tx f a ∈ new → transmittable f

/-- R282, R285: the transmit capability's answers change no state of the engine: with other answers every command ends alike, in the same
state but for the trace and the answers themselves. -/
def Obligations.TransmitAnswersChangeNoState : Prop :=
  ∀ (i : Instr) (s : State) (l : List TxAnswer),
    (∀ t, exec i s = .next t → ∃ t', exec i { s with txAnswers := l } = .next t' ∧
      t' = { t with trace := t'.trace, txAnswers := t'.txAnswers, draws := t'.draws }) ∧
    (∀ k, exec i s = .fault k → exec i { s with txAnswers := l } = .fault k) ∧
    (∀ r, exec i s = .refused r → exec i { s with txAnswers := l } = .refused r)

/-! ### 45_lifecycle.md, 70_reset_and_hazards.md -/

/-- R46, R300: INIT on an engine that is not live leaves the state of R46, the bookkeeping and what the host presented apart; with no buckets
it is PARAM_ERROR and writes nothing; on a live one it is a fault. -/
def Obligations.InitLeavesResetState : Prop :=
  ∀ s : State,
    (s.live = true → exec .init s = .fault .alreadyLive) ∧
    (s.live = false → s.cfg.bucketCount = 0 → exec .init s = .next (emit (.result [0x01]) s)) ∧
    (s.live = false → s.cfg.bucketCount ≠ 0 →
      exec .init s = .next (emit (.result [0x00])
        { State.resetWith s.cfg with
          fault := s.fault
          refused := s.refused
          trace := s.trace
          input := s.input
          txAnswers := s.txAnswers
          draws := s.draws }))

/-- R46, R165, R302: DELETE tears the engine down, and an INIT after it gives a fresh engine (R360). Its other fields are free values
(assumption 7), of which this says nothing. -/
def Obligations.DeleteThenInitIsFresh : Prop :=
  ∀ s : State, s.live = true → s.dispState = .idle →
    ∃ u : State, exec .delete s = .next (emit (.result [0x00]) u) ∧
      u.live = false ∧ u.reg = [] ∧ u.regChains = [] ∧ u.dispState = .idle ∧
      u.cfg = s.cfg ∧ u.fault = s.fault ∧ u.refused = s.refused ∧ u.trace = s.trace ∧ u.input = s.input ∧ u.txAnswers = s.txAnswers ∧
      (∀ i, isEngineCommand i = true → i ≠ .init → exec i u = .fault .notLive) ∧
      (s.cfg.bucketCount ≠ 0 → ∃ v : State, exec .init u = .next v ∧
        v = { State.resetWith s.cfg with
          fault := s.fault, refused := s.refused, trace := s.trace ++ [.result [0x00]], input := s.input, txAnswers := s.txAnswers,
          draws := v.draws })

/-- R303: READ_STATE gives the 35 bytes of its table and changes nothing; the encodings are the spec's decision D41. -/
def Obligations.ReadStateResult : Prop :=
  ∀ (s : State) (act rs ds : Byte), s.live = true →
    act = (match s.active with | .none => 0 | .single => 1 | .multi => 2) →
    rs = (match s.reasmState with | .idle => 0 | .receiving => 1 | .complete => 2) →
    ds = (match s.dispState with | .idle => 0 | .waitService => 1 | .waitSub => 2) →
      exec .readState s = .next (emit (.result
        [0x00, s.sid, s.ssid, act, if s.busy then 1 else 0, rs,
          BitVec.ofNat 8 (s.reasmTotal.toNat / 256), BitVec.ofNat 8 s.reasmTotal.toNat,
          BitVec.ofNat 8 (s.reasmRecv.toNat / 256), BitVec.ofNat 8 s.reasmRecv.toNat,
          BitVec.ofNat 8 s.reasmExpSn.toNat, if s.ncsActive then 1 else 0,
          BitVec.ofNat 8 (s.tick.toNat / 2 ^ 24), BitVec.ofNat 8 (s.tick.toNat / 2 ^ 16),
          BitVec.ofNat 8 (s.tick.toNat / 2 ^ 8), BitVec.ofNat 8 s.tick.toNat,
          BitVec.ofNat 8 (s.lastActivity.toNat / 2 ^ 24), BitVec.ofNat 8 (s.lastActivity.toNat / 2 ^ 16),
          BitVec.ofNat 8 (s.lastActivity.toNat / 2 ^ 8), BitVec.ofNat 8 s.lastActivity.toNat,
          BitVec.ofNat 8 (s.ncsMark.toNat / 2 ^ 24), BitVec.ofNat 8 (s.ncsMark.toNat / 2 ^ 16),
          BitVec.ofNat 8 (s.ncsMark.toNat / 2 ^ 8), BitVec.ofNat 8 s.ncsMark.toNat,
          ds, s.dispSid,
          BitVec.ofNat 8 (s.regRemaining / 256), BitVec.ofNat 8 s.regRemaining,
          BitVec.ofNat 8 s.rxLen.toNat,
          s.rxBuf.b0, s.rxBuf.b1, s.rxBuf.b2, s.rxBuf.b3, s.rxBuf.b4, s.rxBuf.b5, s.rxBuf.b6]) s)

/-- R304: READ_BUF gives the byte at the offset, or PARAM_ERROR outside the buffer, and changes nothing. -/
def Obligations.ReadBufResult : Prop :=
  ∀ (off : Half) (s : State), s.live = true →
    (s.cfg.reasmCapacity ≤ off.toNat → exec (.readBuf off) s = .next (emit (.result [0x01, 0x00]) s)) ∧
    (off.toNat < s.cfg.reasmCapacity → exec (.readBuf off) s = .next (emit (.result [0x00, Memory.read s.reasmBuf off.toNat]) s))

/-- R46, R360: what the reset leaves, under every configuration, in the fields R46 names. That `State.reset` is the state after INIT is
assumption 3; its configuration is assumption 4. -/
def Obligations.ResetState : Prop :=
  (∀ (c : Config) (s : State), s = State.resetWith c →
    s.cfg = c ∧ s.live = true ∧ s.sid = c.defaultSid ∧ s.ssid = c.defaultSsid ∧ s.active = .none ∧ s.busy = false ∧ s.tick = 0 ∧
    s.lastActivity = 0 ∧ s.ncsActive = false ∧ s.ncsMark = 0 ∧ s.reasmState = .idle ∧ s.reasmTotal = 0 ∧ s.reasmRecv = 0 ∧
    s.reasmExpSn = 0 ∧ (∀ o, Memory.read s.reasmBuf o = 0) ∧ s.rxBuf = ⟨0, 0, 0, 0, 0, 0, 0⟩ ∧ s.rxLen = 0 ∧
    (∀ k, regFind k s = none) ∧ s.regRemaining = c.maxServices ∧ s.regChains = List.replicate c.bucketCount [] ∧
    s.dispState = .idle ∧ s.dispSid = 0 ∧ s.fault = none ∧ s.refused = false ∧ s.trace = []) ∧
  State.reset = State.resetWith State.reset.cfg ∧ State.reset.cfg.wf = true

/-! ### 60_exceptions.md -/

/-- R331: while the engine is not live every engine command but INIT faults NOT_LIVE, before any other check. -/
def Obligations.NotLiveFaults : Prop :=
  ∀ (i : Instr) (s : State), s.live = false → isEngineCommand i = true → i ≠ .init → exec i s = .fault .notLive

/-- R330, R332, R252: on a live engine, the commands a handler call excludes fault COMMAND_DURING_DISPATCH while one is outstanding,
HANDLER_RETURN faults NO_HANDLER_CALL while none is, and no other command but INIT, and no command R332 admits, faults with one of these. -/
def Obligations.AdmissionDuringHandlerCall : Prop :=
  ∀ (i : Instr) (s : State), s.live = true →
    (needsIdle i = true → s.dispState ≠ .idle → exec i s = .fault .commandDuringDispatch) ∧
    (∀ c, s.dispState = .idle → exec (.handlerReturn c) s = .fault .noHandlerCall) ∧
    (needsIdle i = false → exec i s ≠ .fault .commandDuringDispatch) ∧
    (exec i s = .fault .noHandlerCall → ∃ c, i = .handlerReturn c) ∧
    (exec i s = .fault .alreadyLive → i = .init) ∧
    exec i s ≠ .fault .notLive

/-- R321: a command whose status is not OK has written no state: only the trace, and the answers its attempts used, differ. -/
def Obligations.FailedStatusWritesNothing : Prop :=
  ∀ (i : Instr) (s t : State) (e : List Event) (st : Byte) (outs : List Byte),
    exec i s = .next t → t.trace = e ++ [.result (st :: outs)] → st ≠ 0x00 →
      t = { s with trace := t.trace, txAnswers := t.txAnswers, draws := t.draws } ∧ ∀ b ∈ outs, b = 0

/-- R65: the reading and codec commands change nothing but the trace, to which they append their result alone; the two response commands
change no state of the engine. -/
def Obligations.ReadsHaveNoSideEffects : Prop :=
  (∀ (i : Instr) (s t : State), isRead i = true → exec i s = .next t → ∃ packet, t = emit (.result packet) s) ∧
  (∀ (i : Instr) (s : State), isRead i = true → (isCodec i = true ∨ s.live = true) → ∃ t, exec i s = .next t) ∧
  (∀ (i : Instr) (s t : State), (i = .respondPositive ∨ ∃ c, i = .respondNegative c) → exec i s = .next t →
    t = { s with trace := t.trace, txAnswers := t.txAnswers, draws := t.draws })

/-- R342: handler calls never nest: a command calls at most one handler, only DISPATCH in D_IDLE or the HANDLER_RETURN of a service handler
does, and the call it makes is then outstanding. -/
def Obligations.HandlerCallsNeverNest : Prop :=
  ∀ (i : Instr) (s t : State) (new : List Event), exec i s = .next t → t.trace = s.trace ++ new →
    ∀ k sid ssid hid prm, Event.hcall k sid ssid hid prm ∈ new →
      ((i = .dispatch ∧ s.dispState = .idle) ∨ ((∃ c, i = .handlerReturn c) ∧ s.dispState = .waitService)) ∧
      t.busy = true ∧ t.dispState = (match k with | .service => .waitService | .subfunction => .waitSub) ∧
      (new.filter (fun e => match e with | .hcall _ _ _ _ _ => true | _ => false)).length = 1

/-- R37, R71, R332: what writes the registry: a registration, a removal, INIT or DELETE, and none of them while a handler call is outstanding. -/
def Obligations.RegistryFixedDuringDispatch : Prop :=
  ∀ (i : Instr) (s t : State), exec i s = .next t →
    (s.live = true → s.dispState ≠ .idle → t.reg = s.reg ∧ t.regRemaining = s.regRemaining ∧ t.regChains = s.regChains) ∧
    (needsIdle i = false → i ≠ .init → t.reg = s.reg ∧ t.regRemaining = s.regRemaining ∧ t.regChains = s.regChains) ∧
    (i = .dispatch → t.reg = s.reg ∧ t.regRemaining = s.regRemaining ∧ t.regChains = s.regChains)

/-- R44, R42: no command writes the configuration or the fault and refusal marks. That the configuration stands in the state is the model's
choice (assumption 5), and so is the queue of pending inputs (assumption 1), which no command writes either: a step takes its input before it
executes it. -/
def Obligations.ConfigurationIsFixed : Prop :=
  ∀ (i : Instr) (s t : State), exec i s = .next t →
    t.cfg = s.cfg ∧ t.fault = s.fault ∧ t.refused = s.refused ∧ t.input = s.input

/-- R62: the bit-order configuration changes no outcome and no byte of any event. -/
def Obligations.BitOrderChangesNothing : Prop :=
  ∀ (i : Instr) (s : State) (b : BitOrder),
    (∀ t, exec i s = .next t →
      exec i { s with cfg := { s.cfg with bitOrder := b } } = .next { t with cfg := { t.cfg with bitOrder := b } }) ∧
    (∀ k, exec i s = .fault k → exec i { s with cfg := { s.cfg with bitOrder := b } } = .fault k) ∧
    (∀ r, exec i s = .refused r → exec i { s with cfg := { s.cfg with bitOrder := b } } = .refused r)

/-! ### 10_state.md: the invariant of the reachable states -/

/-- R35, R37, R38, R39, R51, R64, R284: every step keeps the invariant. -/
def Obligations.StepKeepsInvariant : Prop :=
  ∀ s t : State, s.Inv → step s = .next t → t.Inv

/-- The invariant holds right after reset, under every configuration with a bucket, and at power-on under every configuration. -/
def Obligations.InvariantHoldsAtReset : Prop :=
  State.reset.Inv ∧ (∀ c : Config, 0 < c.bucketCount → (State.resetWith c).Inv) ∧ (∀ c : Config, (State.powerOn c).Inv)

/-- R64 and R248: in a state of the invariant no command raises either of the model's own faults (assumption 9), so every fault is one of
R330's. -/
def Obligations.ModelFaultsAreUnreachable : Prop :=
  ∀ (i : Instr) (s : State), s.Inv → exec i s ≠ .fault .reassemblyRange ∧ exec i s ≠ .fault .entryMissing
end

