-- ==== Sys2Proof/Laws/Bits.lean ====
section
/-! SUPPORT. Bit fields, byte order and frame layouts: taking a field out of what was put together gives it back. -/

namespace Sys2Proof

theorem getLsbD_append_split {n m : Nat} (x : BitVec n) (y : BitVec m) (i : Nat) :
    (x ++ y).getLsbD i = if i < m then y.getLsbD i else x.getLsbD (i - m) := by simp [BitVec.getLsbD_append]

theorem hiNibble_append : ∀ a b : Nibble, hiNibble (a ++ b) = a := by decide

theorem loNibble_append : ∀ a b : Nibble, loNibble (a ++ b) = b := by decide

theorem nibbles_append : ∀ b : Byte, (hiNibble b ++ loNibble b : BitVec (4 + 4)) = b := by decide

theorem be16_bytes (v : Half) : be16 (v.extractLsb' 8 8) (v.extractLsb' 0 8) = v := by
  apply BitVec.eq_of_getLsbD_eq
  intro i hi
  unfold be16
  rw [getLsbD_append_split]
  simp only [BitVec.getLsbD_extractLsb']
  split
  · simp; omega
  · rw [show 8 + (i - 8) = i by omega]; simp; omega

theorem be32_bytes (v : Word) :
    be32 (v.extractLsb' 24 8) (v.extractLsb' 16 8) (v.extractLsb' 8 8) (v.extractLsb' 0 8) = v := by
  apply BitVec.eq_of_getLsbD_eq
  intro i hi
  unfold be32
  rw [getLsbD_append_split, getLsbD_append_split, getLsbD_append_split]
  simp only [BitVec.getLsbD_extractLsb']
  split
  · simp; omega
  · split
    · rw [show 8 + (i - 8) = i by omega]; simp; omega
    · split
      · rw [show 16 + (i - 8 - 8) = i by omega]; simp; omega
      · rw [show 24 + (i - 8 - 8 - 8) = i by omega]; simp; omega

theorem extract_high {n m : Nat} (x : BitVec n) (y : BitVec m) : (x ++ y).extractLsb' m n = x := by
  apply BitVec.eq_of_getLsbD_eq
  intro i hi
  rw [BitVec.getLsbD_extractLsb', getLsbD_append_split]
  simp [hi]

theorem extract_low {n m : Nat} (x : BitVec n) (y : BitVec m) : (x ++ y).extractLsb' 0 m = y := by
  apply BitVec.eq_of_getLsbD_eq
  intro i hi
  rw [BitVec.getLsbD_extractLsb', getLsbD_append_split]
  simp [hi]

theorem bytes16_be16 (h l : Byte) : bytes16 (be16 h l) = [h, l] := by
  rw [bytes16, be16, extract_high, extract_low]

theorem bytes32_be32 (b3 b2 b1 b0 : Byte) : bytes32 (be32 b3 b2 b1 b0) = [b3, b2, b1, b0] := by
  unfold bytes32 be32
  congr
  all_goals
    apply BitVec.eq_of_getLsbD_eq
    intro i hi
    rw [BitVec.getLsbD_extractLsb']
    repeat rw [getLsbD_append_split]
    simp only [hi, decide_true, Bool.true_and]
    split_ifs <;> first | omega | (congr 1; omega)

theorem total_bytes (v : Len12) : (v.extractLsb' 8 4 ++ v.extractLsb' 0 8 : BitVec (4 + 8)) = v := by
  apply BitVec.eq_of_getLsbD_eq
  intro i hi
  rw [getLsbD_append_split]
  simp only [BitVec.getLsbD_extractLsb']
  split
  · simp; omega
  · rw [show 8 + (i - 8) = i by omega]; simp; omega

@[simp] theorem typeNibble_ofPci (t k : Nibble) (p : Bytes7) : (Frame.ofPci t k p).typeNibble = t := hiNibble_append t k

@[simp] theorem kindNibble_ofPci (t k : Nibble) (p : Bytes7) : (Frame.ofPci t k p).kindNibble = k := loNibble_append t k

@[simp] theorem tail7_ofPci (t k : Nibble) (p : Bytes7) : (Frame.ofPci t k p).tail7 = p := rfl

/-- A frame is its PCI nibbles and its other seven bytes (R80). -/
theorem ofPci_self (f : Frame) : Frame.ofPci f.typeNibble f.kindNibble f.tail7 = f := by
  have h := nibbles_append f.f0
  cases f
  simp only [Frame.ofPci, Frame.typeNibble, Frame.kindNibble, Frame.tail7] at h ⊢
  simp only [Frame.mk.injEq, and_true]
  exact h

@[simp] theorem typeNibble_single (l : Nibble) (p : Bytes7) : (Frame.single l p).typeNibble = 0 := typeNibble_ofPci ..

@[simp] theorem kindNibble_single (l : Nibble) (p : Bytes7) : (Frame.single l p).kindNibble = l := kindNibble_ofPci ..

@[simp] theorem tail7_single (l : Nibble) (p : Bytes7) : (Frame.single l p).tail7 = p := rfl

@[simp] theorem typeNibble_first (t : Len12) (p : Bytes6) : (Frame.first t p).typeNibble = 1 := typeNibble_ofPci ..

@[simp] theorem total_first (t : Len12) (p : Bytes6) : (Frame.first t p).total = t := by
  have h : (Frame.first t p).kindNibble = t.extractLsb' 8 4 := kindNibble_ofPci ..
  unfold Frame.total
  rw [h]
  exact total_bytes t

@[simp] theorem tail6_first (t : Len12) (p : Bytes6) : (Frame.first t p).tail6 = p := rfl

@[simp] theorem typeNibble_consecutive (n : Nibble) (p : Bytes7) : (Frame.consecutive n p).typeNibble = 2 := typeNibble_ofPci ..

@[simp] theorem kindNibble_consecutive (n : Nibble) (p : Bytes7) : (Frame.consecutive n p).kindNibble = n := kindNibble_ofPci ..

@[simp] theorem tail7_consecutive (n : Nibble) (p : Bytes7) : (Frame.consecutive n p).tail7 = p := rfl

@[simp] theorem typeNibble_flowControl (fs : Nibble) (bs st : Byte) (r : Bytes5) :
    (Frame.flowControl fs bs st r).typeNibble = 3 := typeNibble_ofPci ..

@[simp] theorem kindNibble_flowControl (fs : Nibble) (bs st : Byte) (r : Bytes5) :
    (Frame.flowControl fs bs st r).kindNibble = fs := kindNibble_ofPci ..

namespace Machine

/-- R122 on a frame of the SF layout. -/
theorem unpackSingle_single (l : Nibble) (p : Bytes7) :
    unpackSingle (Frame.single l p) = if 7 < l.toNat then .error .lengthError else .ok (l, p) := by
  simp [unpackSingle]

/-- R124 on a frame of the FF layout. -/
theorem unpackFirst_first (t : Len12) (p : Bytes6) :
    unpackFirst (Frame.first t p) = if t.toNat < 8 then .error .lengthError else .ok (t, p) := by
  simp [unpackFirst]

/-- R126 on a frame of the CF layout: it cannot fail. -/
theorem unpackConsecutive_consecutive (n : Nibble) (p : Bytes7) :
    unpackConsecutive (Frame.consecutive n p) = .ok (n, p) := by
  have h : ¬ 15 < n.toNat := by omega
  simp [unpackConsecutive, h]

end Machine

end Sys2Proof
end

