-- ==== Sys2Proof/Laws/Decode.lean ====
section
/-! SUPPORT. What each operand reader of the command packets does (spec 30_encoding.md R91): the lists it accepts, by their length, and what it reads
from one; and what the opcode map and the frame classification do. -/

namespace Sys2Proof

/-! ### Operand readers -/

theorem operandsN_isSome (i : Instr) (l : List Byte) : (operandsN i l).isSome = decide (l.length = 0) := by
  rcases l with _ | ⟨_, _⟩ <;> rfl

theorem operandsN_some {i j : Instr} {l : List Byte} (h : operandsN i l = some j) : l = [] ∧ j = i := by
  rcases l with _ | ⟨a, l⟩
  · exact ⟨rfl, (Option.some.inj h).symm⟩
  · simp [operandsN] at h

theorem operandsFR_isSome (mk : Frame → Instr) (l : List Byte) : (operandsFR mk l).isSome = decide (l.length = 8) := by
  rcases l with _ | ⟨a0, _ | ⟨a1, _ | ⟨a2, _ | ⟨a3, _ | ⟨a4, _ | ⟨a5, _ | ⟨a6, _ | ⟨a7, _ | ⟨a8, l⟩⟩⟩⟩⟩⟩⟩⟩⟩
  case cons.cons.cons.cons.cons.cons.cons.cons.cons => simp [operandsFR]
  all_goals rfl

theorem operandsFR_some {mk : Frame → Instr} {i : Instr} {l : List Byte} (h : operandsFR mk l = some i) :
    ∃ f : Frame, l = f.toList ∧ i = mk f := by
  rcases l with _ | ⟨a0, _ | ⟨a1, _ | ⟨a2, _ | ⟨a3, _ | ⟨a4, _ | ⟨a5, _ | ⟨a6, _ | ⟨a7, _ | ⟨a8, l⟩⟩⟩⟩⟩⟩⟩⟩⟩
  case cons.cons.cons.cons.cons.cons.cons.cons.nil => exact ⟨⟨a0, a1, a2, a3, a4, a5, a6, a7⟩, rfl, (Option.some.inj h).symm⟩
  all_goals simp [operandsFR] at h

theorem operandsSF_isSome (mk : Byte → Bytes7 → Instr) (l : List Byte) : (operandsSF mk l).isSome = decide (l.length = 8) := by
  rcases l with _ | ⟨a0, _ | ⟨a1, _ | ⟨a2, _ | ⟨a3, _ | ⟨a4, _ | ⟨a5, _ | ⟨a6, _ | ⟨a7, _ | ⟨a8, l⟩⟩⟩⟩⟩⟩⟩⟩⟩
  case cons.cons.cons.cons.cons.cons.cons.cons.cons => simp [operandsSF]
  all_goals rfl

theorem operandsSF_some {mk : Byte → Bytes7 → Instr} {i : Instr} {l : List Byte} (h : operandsSF mk l = some i) :
    ∃ (len : Byte) (p : Bytes7), l = len :: p.toList ∧ i = mk len p := by
  rcases l with _ | ⟨a0, _ | ⟨a1, _ | ⟨a2, _ | ⟨a3, _ | ⟨a4, _ | ⟨a5, _ | ⟨a6, _ | ⟨a7, _ | ⟨a8, l⟩⟩⟩⟩⟩⟩⟩⟩⟩
  case cons.cons.cons.cons.cons.cons.cons.cons.nil => exact ⟨a0, ⟨a1, a2, a3, a4, a5, a6, a7⟩, rfl, (Option.some.inj h).symm⟩
  all_goals simp [operandsSF] at h

theorem operandsFF_isSome (mk : Half → Bytes6 → Instr) (l : List Byte) : (operandsFF mk l).isSome = decide (l.length = 8) := by
  rcases l with _ | ⟨a0, _ | ⟨a1, _ | ⟨a2, _ | ⟨a3, _ | ⟨a4, _ | ⟨a5, _ | ⟨a6, _ | ⟨a7, _ | ⟨a8, l⟩⟩⟩⟩⟩⟩⟩⟩⟩
  case cons.cons.cons.cons.cons.cons.cons.cons.cons => simp [operandsFF]
  all_goals rfl

theorem operandsFF_some {mk : Half → Bytes6 → Instr} {i : Instr} {l : List Byte} (h : operandsFF mk l = some i) :
    ∃ (v : Half) (p : Bytes6), l = bytes16 v ++ p.toList ∧ i = mk v p := by
  rcases l with _ | ⟨a0, _ | ⟨a1, _ | ⟨a2, _ | ⟨a3, _ | ⟨a4, _ | ⟨a5, _ | ⟨a6, _ | ⟨a7, _ | ⟨a8, l⟩⟩⟩⟩⟩⟩⟩⟩⟩
  case cons.cons.cons.cons.cons.cons.cons.cons.nil => exact ⟨be16 a0 a1, ⟨a2, a3, a4, a5, a6, a7⟩, by rw [bytes16_be16]; rfl, (Option.some.inj h).symm⟩
  all_goals simp [operandsFF] at h

theorem operandsCF_isSome (mk : Byte → Byte → Bytes7 → Instr) (l : List Byte) : (operandsCF mk l).isSome = decide (l.length = 9) := by
  rcases l with _ | ⟨a0, _ | ⟨a1, _ | ⟨a2, _ | ⟨a3, _ | ⟨a4, _ | ⟨a5, _ | ⟨a6, _ | ⟨a7, _ | ⟨a8, _ | ⟨a9, l⟩⟩⟩⟩⟩⟩⟩⟩⟩⟩
  case cons.cons.cons.cons.cons.cons.cons.cons.cons.cons => simp [operandsCF]
  all_goals rfl

theorem operandsCF_some {mk : Byte → Byte → Bytes7 → Instr} {i : Instr} {l : List Byte} (h : operandsCF mk l = some i) :
    ∃ (len sn : Byte) (p : Bytes7), l = len :: sn :: p.toList ∧ i = mk len sn p := by
  rcases l with _ | ⟨a0, _ | ⟨a1, _ | ⟨a2, _ | ⟨a3, _ | ⟨a4, _ | ⟨a5, _ | ⟨a6, _ | ⟨a7, _ | ⟨a8, _ | ⟨a9, l⟩⟩⟩⟩⟩⟩⟩⟩⟩⟩
  case cons.cons.cons.cons.cons.cons.cons.cons.cons.nil => exact ⟨a0, a1, ⟨a2, a3, a4, a5, a6, a7, a8⟩, rfl, (Option.some.inj h).symm⟩
  all_goals simp [operandsCF] at h

theorem operandsFC_isSome (mk : Byte → Byte → Byte → Instr) (l : List Byte) : (operandsFC mk l).isSome = decide (l.length = 3) := by
  rcases l with _ | ⟨a0, _ | ⟨a1, _ | ⟨a2, _ | ⟨a3, l⟩⟩⟩⟩
  case cons.cons.cons.cons => simp [operandsFC]
  all_goals rfl

theorem operandsFC_some {mk : Byte → Byte → Byte → Instr} {i : Instr} {l : List Byte} (h : operandsFC mk l = some i) :
    ∃ bs st fs : Byte, l = [bs, st, fs] ∧ i = mk bs st fs := by
  rcases l with _ | ⟨a0, _ | ⟨a1, _ | ⟨a2, _ | ⟨a3, l⟩⟩⟩⟩
  case cons.cons.cons.nil => exact ⟨a0, a1, a2, rfl, (Option.some.inj h).symm⟩
  all_goals simp [operandsFC] at h

theorem operandsT_isSome (mk : Word → Instr) (l : List Byte) : (operandsT mk l).isSome = decide (l.length = 4) := by
  rcases l with _ | ⟨a0, _ | ⟨a1, _ | ⟨a2, _ | ⟨a3, _ | ⟨a4, l⟩⟩⟩⟩⟩
  case cons.cons.cons.cons.cons => simp [operandsT]
  all_goals rfl

theorem operandsT_some {mk : Word → Instr} {i : Instr} {l : List Byte} (h : operandsT mk l = some i) :
    ∃ v : Word, l = bytes32 v ∧ i = mk v := by
  rcases l with _ | ⟨a0, _ | ⟨a1, _ | ⟨a2, _ | ⟨a3, _ | ⟨a4, l⟩⟩⟩⟩⟩
  case cons.cons.cons.cons.nil => exact ⟨be32 a0 a1 a2 a3, by rw [bytes32_be32], (Option.some.inj h).symm⟩
  all_goals simp [operandsT] at h

theorem operandsRS_isSome (mk : Byte → Byte → Byte → Word → Instr) (l : List Byte) : (operandsRS mk l).isSome = decide (l.length = 7) := by
  rcases l with _ | ⟨a0, _ | ⟨a1, _ | ⟨a2, _ | ⟨a3, _ | ⟨a4, _ | ⟨a5, _ | ⟨a6, _ | ⟨a7, l⟩⟩⟩⟩⟩⟩⟩⟩
  case cons.cons.cons.cons.cons.cons.cons.cons => simp [operandsRS]
  all_goals rfl

theorem operandsRS_some {mk : Byte → Byte → Byte → Word → Instr} {i : Instr} {l : List Byte} (h : operandsRS mk l = some i) :
    ∃ (sid hflag hid : Byte) (v : Word), l = sid :: hflag :: hid :: bytes32 v ∧ i = mk sid hflag hid v := by
  rcases l with _ | ⟨a0, _ | ⟨a1, _ | ⟨a2, _ | ⟨a3, _ | ⟨a4, _ | ⟨a5, _ | ⟨a6, _ | ⟨a7, l⟩⟩⟩⟩⟩⟩⟩⟩
  case cons.cons.cons.cons.cons.cons.cons.nil => exact ⟨a0, a1, a2, be32 a3 a4 a5 a6, by rw [bytes32_be32], (Option.some.inj h).symm⟩
  all_goals simp [operandsRS] at h

theorem operandsRSS_isSome (mk : Byte → Byte → Byte → Byte → Word → Instr) (l : List Byte) : (operandsRSS mk l).isSome = decide (l.length = 8) := by
  rcases l with _ | ⟨a0, _ | ⟨a1, _ | ⟨a2, _ | ⟨a3, _ | ⟨a4, _ | ⟨a5, _ | ⟨a6, _ | ⟨a7, _ | ⟨a8, l⟩⟩⟩⟩⟩⟩⟩⟩⟩
  case cons.cons.cons.cons.cons.cons.cons.cons.cons => simp [operandsRSS]
  all_goals rfl

theorem operandsRSS_some {mk : Byte → Byte → Byte → Byte → Word → Instr} {i : Instr} {l : List Byte} (h : operandsRSS mk l = some i) :
    ∃ (sid ssid hflag hid : Byte) (v : Word), l = sid :: ssid :: hflag :: hid :: bytes32 v ∧ i = mk sid ssid hflag hid v := by
  rcases l with _ | ⟨a0, _ | ⟨a1, _ | ⟨a2, _ | ⟨a3, _ | ⟨a4, _ | ⟨a5, _ | ⟨a6, _ | ⟨a7, _ | ⟨a8, l⟩⟩⟩⟩⟩⟩⟩⟩⟩
  case cons.cons.cons.cons.cons.cons.cons.cons.nil => exact ⟨a0, a1, a2, a3, be32 a4 a5 a6 a7, by rw [bytes32_be32], (Option.some.inj h).symm⟩
  all_goals simp [operandsRSS] at h

theorem operandsByte_isSome (mk : Byte → Instr) (l : List Byte) : (operandsByte mk l).isSome = decide (l.length = 1) := by
  rcases l with _ | ⟨a0, _ | ⟨a1, l⟩⟩
  case cons.cons => simp [operandsByte]
  all_goals rfl

theorem operandsByte_some {mk : Byte → Instr} {i : Instr} {l : List Byte} (h : operandsByte mk l = some i) :
    ∃ k : Byte, l = [k] ∧ i = mk k := by
  rcases l with _ | ⟨a0, _ | ⟨a1, l⟩⟩
  case cons.nil => exact ⟨a0, rfl, (Option.some.inj h).symm⟩
  all_goals simp [operandsByte] at h

theorem operandsA_isSome (mk : Half → Instr) (l : List Byte) : (operandsA mk l).isSome = decide (l.length = 2) := by
  rcases l with _ | ⟨a0, _ | ⟨a1, _ | ⟨a2, l⟩⟩⟩
  case cons.cons.cons => simp [operandsA]
  all_goals rfl

theorem operandsA_some {mk : Half → Instr} {i : Instr} {l : List Byte} (h : operandsA mk l = some i) :
    ∃ v : Half, l = bytes16 v ∧ i = mk v := by
  rcases l with _ | ⟨a0, _ | ⟨a1, _ | ⟨a2, l⟩⟩⟩
  case cons.cons.nil => exact ⟨be16 a0 a1, by rw [bytes16_be16], (Option.some.inj h).symm⟩
  all_goals simp [operandsA] at h

/-! ### The opcode map -/

/-- An opcode either selects a command or is one of R94's. -/
theorem commandOf_isNone : ∀ op : Byte, (commandOf op).isNone = isReservedOpcode op := by decide

/-- A packet has a length exactly when its opcode selects a command. -/
theorem packetLength_isNone : ∀ op : Byte, (packetLength op).isNone = isReservedOpcode op := by decide

/-- R95: the reader of an opcode's operands accepts exactly the lists of the length the opcode determines. -/
theorem commandOf_length {op : Byte} {read : List Byte → Option Instr} (h : commandOf op = some read) (l : List Byte) :
    ∃ n, packetLength op = some n ∧ (read l).isSome = decide (l.length + 1 = n) := by
  unfold commandOf at h
  split at h
  case h_23 => simp at h
  all_goals
    rename_i opcode
    cases h
    simp only [packetLength, opcode, Option.some.injEq, exists_eq_left', operandsSF_isSome, operandsFR_isSome, operandsFF_isSome,
      operandsCF_isSome, operandsFC_isSome, operandsRS_isSome, operandsRSS_isSome, operandsByte_isSome, operandsN_isSome,
      operandsT_isSome, operandsA_isSome, Nat.reduceEqDiff]

/-! ### Frames -/

theorem hiNibble_toNat : ∀ b : Byte, (hiNibble b).toNat = b.toNat / 16 := by decide

theorem loNibble_toNat : ∀ b : Byte, (loNibble b).toNat = b.toNat % 16 := by decide

theorem typeNibble_toNat (f : Frame) : f.typeNibble.toNat = f.f0.toNat / 16 := hiNibble_toNat f.f0

theorem kindNibble_toNat (f : Frame) : f.kindNibble.toNat = f.f0.toNat % 16 := loNibble_toNat f.f0

theorem typeNibble_ne (f : Frame) (n : Nibble) : f.typeNibble ≠ n ↔ f.f0.toNat / 16 ≠ n.toNat := by
  rw [← typeNibble_toNat]
  exact not_congr BitVec.toNat_inj.symm

theorem kindNibble_byte (f : Frame) : f.kindNibble.setWidth 8 = BitVec.ofNat 8 (f.f0.toNat % 16) := by
  rw [← kindNibble_toNat]
  apply BitVec.eq_of_toNat_eq
  simp

theorem total_toNat (f : Frame) : f.total.toNat = f.f0.toNat % 16 * 256 + f.f1.toNat := by
  show ((f.kindNibble : Nibble) ++ f.f1 : BitVec (4 + 8)).toNat = _
  rw [BitVec.toNat_append, ← Nat.shiftLeft_add_eq_or_of_lt f.f1.isLt, Nat.shiftLeft_eq, kindNibble_toNat]

/-- R88: the rows of the reserved type nibbles. -/
theorem decodeFrame_reserved (t k : Nibble) (p : Bytes7) (h : 4 ≤ t.toNat) :
    decodeFrame (Frame.ofPci t k p) = if t.toNat ≤ 7 then .frameReserved t k p else .frameReservedHi t k p := by
  unfold decodeFrame
  simp only [typeNibble_ofPci, kindNibble_ofPci, tail7_ofPci]
  split <;> first | omega | rfl

end Sys2Proof
end

