-- ==== Sys2Proof/Laws/Rows.lean ====
section
/-! SUPPORT. Rows in rank order, the reassembly buffer and the registry map: a read after a write, what a write leaves alone, and that every
operation keeps the canonical form. -/

namespace Sys2Proof.Machine

section rows

variable {ρ : Type} (rank : ρ → Nat)

theorem findRow_putRow_same (r : ρ) (l : List ρ) : findRow rank (rank r) (putRow rank r l) = some r := by
  induction l with
  | nil => simp [putRow, findRow]
  | cons x xs ih =>
    unfold putRow
    split
    · simp [findRow]
    · split
      · simp [findRow]
      · next _ h => simp [findRow, ih, Ne.symm h]

theorem findRow_putRow_other (r : ρ) (l : List ρ) {n : Nat} (h : n ≠ rank r) :
    findRow rank n (putRow rank r l) = findRow rank n l := by
  induction l with
  | nil => simp [putRow, findRow, Ne.symm h]
  | cons x xs ih =>
    unfold putRow
    split
    · simp [findRow, Ne.symm h]
    · split
      · next _ e => simp [findRow, Ne.symm h, ← e]
      · simp [findRow, ih]

theorem dropRow_cons (n : Nat) (x : ρ) (xs : List ρ) :
    dropRow rank n (x :: xs) = if rank x = n then dropRow rank n xs else x :: dropRow rank n xs := by
  by_cases h : rank x = n <;> simp [dropRow, h]

theorem findRow_dropRow_same (n : Nat) (l : List ρ) : findRow rank n (dropRow rank n l) = none := by
  induction l with
  | nil => rfl
  | cons x xs ih =>
    rw [dropRow_cons]
    split
    · exact ih
    · next h => simp [findRow, h, ih]

theorem findRow_dropRow_other {n m : Nat} (h : n ≠ m) (l : List ρ) :
    findRow rank n (dropRow rank m l) = findRow rank n l := by
  induction l with
  | nil => rfl
  | cons x xs ih =>
    rw [dropRow_cons]
    split
    · next hx => simp [findRow, hx, Ne.symm h, ih]
    · simp [findRow, ih]

theorem mem_of_findRow {n : Nat} {l : List ρ} {r : ρ} (h : findRow rank n l = some r) : r ∈ l ∧ rank r = n := by
  induction l with
  | nil => simp [findRow] at h
  | cons x xs ih =>
    unfold findRow at h
    split at h
    · next e => cases h; exact ⟨List.mem_cons_self, e⟩
    · exact ⟨List.mem_cons_of_mem _ (ih h).1, (ih h).2⟩

theorem mem_putRow {r y : ρ} {l : List ρ} (h : y ∈ putRow rank r l) : y = r ∨ y ∈ l := by
  induction l with
  | nil => simpa [putRow] using h
  | cons x xs ih =>
    unfold putRow at h
    split at h
    · simpa using h
    · split at h
      · simp only [List.mem_cons] at h ⊢; tauto
      · simp only [List.mem_cons] at h ⊢; rcases h with h | h
        · tauto
        · have := ih h; tauto

theorem rowsRise_putRow (r : ρ) {l : List ρ} (h : rowsRise rank l = true) : rowsRise rank (putRow rank r l) = true := by
  induction l with
  | nil => rfl
  | cons x xs ih =>
    simp only [rowsRise, Bool.and_eq_true, List.all_eq_true, decide_eq_true_eq] at h
    unfold putRow
    split
    · next lt =>
      simp only [rowsRise, Bool.and_eq_true, List.all_eq_true, decide_eq_true_eq, List.mem_cons]
      refine ⟨?_, h⟩
      rintro y (rfl | hy)
      · exact lt
      · exact lt_trans lt (h.1 y hy)
    · split
      · next _ e =>
        simp only [rowsRise, Bool.and_eq_true, List.all_eq_true, decide_eq_true_eq]
        exact ⟨fun y hy => e ▸ h.1 y hy, h.2⟩
      · next nlt ne =>
        simp only [rowsRise, Bool.and_eq_true, List.all_eq_true, decide_eq_true_eq]
        refine ⟨fun y hy => ?_, ih h.2⟩
        rcases mem_putRow rank hy with rfl | hy
        · omega
        · exact h.1 y hy

theorem rowsRise_dropRow (n : Nat) {l : List ρ} (h : rowsRise rank l = true) : rowsRise rank (dropRow rank n l) = true := by
  induction l with
  | nil => rfl
  | cons x xs ih =>
    simp only [rowsRise, Bool.and_eq_true, List.all_eq_true, decide_eq_true_eq] at h
    simp only [dropRow, List.filter_cons]
    split
    · simp only [rowsRise, Bool.and_eq_true, List.all_eq_true, decide_eq_true_eq]
      exact ⟨fun y hy => h.1 y (List.mem_of_mem_filter hy), ih h.2⟩
    · exact ih h.2

theorem findRow_eq_none_of_above {n : Nat} {l : List ρ} (h : ∀ y ∈ l, n < rank y) : findRow rank n l = none := by
  induction l with
  | nil => rfl
  | cons x xs ih =>
    have := h x List.mem_cons_self
    simp only [findRow, if_neg (Nat.ne_of_gt this)]
    exact ih fun y hy => h y (List.mem_cons_of_mem _ hy)

theorem length_putRow_new {r : ρ} {l : List ρ} (h : findRow rank (rank r) l = none) :
    (putRow rank r l).length = l.length + 1 := by
  induction l with
  | nil => rfl
  | cons x xs ih =>
    unfold findRow at h
    split at h
    · simp at h
    · next ne =>
      unfold putRow
      split
      · simp
      · simp [Ne.symm ne, ih h]

theorem length_putRow_old {r q : ρ} {l : List ρ} (rise : rowsRise rank l = true) (h : findRow rank (rank r) l = some q) :
    (putRow rank r l).length = l.length := by
  induction l with
  | nil => simp [findRow] at h
  | cons x xs ih =>
    simp only [rowsRise, Bool.and_eq_true, List.all_eq_true, decide_eq_true_eq] at rise
    unfold findRow at h
    unfold putRow
    split
    · next lt =>
      split at h
      · omega
      · obtain ⟨hm, hr⟩ := mem_of_findRow rank h
        have := rise.1 q hm
        omega
    · split
      · simp
      · next _ ne => simp [ih rise.2 (by simpa [Ne.symm ne] using h)]

theorem length_dropRow {n : Nat} {q : ρ} {l : List ρ} (rise : rowsRise rank l = true) (h : findRow rank n l = some q) :
    (dropRow rank n l).length + 1 = l.length := by
  induction l with
  | nil => simp [findRow] at h
  | cons x xs ih =>
    simp only [rowsRise, Bool.and_eq_true, List.all_eq_true, decide_eq_true_eq] at rise
    unfold findRow at h
    simp only [dropRow, List.filter_cons]
    split
    · next hx =>
      simp only [decide_eq_true_eq] at hx
      have := ih rise.2 (by simpa [hx] using h)
      simp only [List.length_cons]
      exact congrArg (· + 1) this
    · next hx =>
      simp only [decide_eq_true_eq, not_not] at hx
      have all : xs.filter (fun y => decide (rank y ≠ n)) = xs :=
        List.filter_eq_self.2 fun y hy => by have := rise.1 y hy; simp; omega
      rw [all]; rfl

end rows

/-! ### The buffer -/

theorem read_write_same (m : List Host.Cell) (a : Nat) (v : Byte) : Memory.read (Memory.write m a v) a = v := by
  unfold Memory.write
  split
  · next h => simp [Memory.read, findRow_dropRow_same, h]
  · simp [Memory.read, show findRow cellRank a (putRow cellRank (a, v) m) = some (a, v) from findRow_putRow_same cellRank (a, v) m]

theorem read_write_other (m : List Host.Cell) {a b : Nat} (v : Byte) (h : b ≠ a) :
    Memory.read (Memory.write m a v) b = Memory.read m b := by
  unfold Memory.write
  split
  · simp [Memory.read, findRow_dropRow_other cellRank h]
  · simp [Memory.read, findRow_putRow_other cellRank (a, v) m (n := b) h]

theorem read_writeBytes_outside (vs : List Byte) (m : List Host.Cell) (a b : Nat) (h : b < a ∨ a + vs.length ≤ b) :
    Memory.read (Memory.writeBytes m a vs) b = Memory.read m b := by
  induction vs generalizing m a with
  | nil => rfl
  | cons v vs ih =>
    simp only [List.length_cons] at h
    rw [Memory.writeBytes, ih _ _ (by omega), read_write_other _ _ (by omega)]

theorem read_writeBytes_inside (vs : List Byte) (m : List Host.Cell) (a i : Nat) (h : i < vs.length) :
    Memory.read (Memory.writeBytes m a vs) (a + i) = vs[i] := by
  induction vs generalizing m a i with
  | nil => simp at h
  | cons v vs ih =>
    rw [Memory.writeBytes]
    cases i with
    | zero => rw [read_writeBytes_outside _ _ _ _ (by omega), Nat.add_zero, read_write_same]; rfl
    | succ j =>
      have e : a + (j + 1) = a + 1 + j := by omega
      rw [e, ih _ _ j (by simpa using h)]; rfl

theorem wf_write {m : List Host.Cell} (h : Memory.wf m = true) (a : Nat) (v : Byte) : Memory.wf (Memory.write m a v) = true := by
  simp only [Memory.wf, Bool.and_eq_true, List.all_eq_true, decide_eq_true_eq] at h ⊢
  unfold Memory.write
  split
  · exact ⟨rowsRise_dropRow cellRank a h.1, fun c hc => h.2 c (List.mem_of_mem_filter hc)⟩
  · next hv =>
    refine ⟨rowsRise_putRow cellRank (a, v) h.1, fun c hc => ?_⟩
    rcases mem_putRow cellRank hc with rfl | hc
    · exact hv
    · exact h.2 c hc

theorem wf_writeBytes (vs : List Byte) {m : List Host.Cell} (h : Memory.wf m = true) (a : Nat) :
    Memory.wf (Memory.writeBytes m a vs) = true := by
  induction vs generalizing m a with
  | nil => exact h
  | cons v vs ih => exact ih (wf_write h a v) (a + 1)

theorem below_write {n : Nat} {m : List Host.Cell} (h : Memory.below n m = true) {a : Nat} (ha : a < n) (v : Byte) :
    Memory.below n (Memory.write m a v) = true := by
  simp only [Memory.below, List.all_eq_true, decide_eq_true_eq] at h ⊢
  unfold Memory.write
  split
  · exact fun c hc => h c (List.mem_of_mem_filter hc)
  · intro c hc
    rcases mem_putRow cellRank hc with rfl | hc
    · exact ha
    · exact h c hc

theorem below_writeBytes (vs : List Byte) {n : Nat} {m : List Host.Cell} (h : Memory.below n m = true) {a : Nat}
    (ha : a + vs.length ≤ n) : Memory.below n (Memory.writeBytes m a vs) = true := by
  induction vs generalizing m a with
  | nil => exact h
  | cons v vs ih =>
    simp only [List.length_cons] at ha
    exact ih (below_write h (by omega) v) (by omega)

theorem freeBuffer_wf (d n : Nat) : Memory.wf (freeBuffer d n) = true ∧ Memory.below n (freeBuffer d n) = true := by
  induction n with
  | zero => exact ⟨rfl, rfl⟩
  | succ n ih =>
    refine ⟨wf_write ih.1 _ _, below_write ?_ (Nat.lt_succ_self n) _⟩
    have := ih.2
    simp only [Memory.below, List.all_eq_true, decide_eq_true_eq] at this ⊢
    exact fun c hc => Nat.lt_succ_of_lt (this c hc)

/-- Two canonical buffers that read alike everywhere are the same list. -/
theorem wf_ext {m n : List Host.Cell} (hm : Memory.wf m = true) (hn : Memory.wf n = true)
    (h : ∀ a, Memory.read m a = Memory.read n a) : m = n := by
  simp only [Memory.wf, Bool.and_eq_true, List.all_eq_true, decide_eq_true_eq] at hm hn
  induction m generalizing n with
  | nil =>
    cases n with
    | nil => rfl
    | cons y ys =>
      have := h y.1
      simp only [Memory.read, findRow, cellRank, if_true] at this
      exact absurd this.symm (hn.2 y List.mem_cons_self)
  | cons x xs ih =>
    cases n with
    | nil =>
      have := h x.1
      simp only [Memory.read, findRow, cellRank, if_true] at this
      exact absurd this (hm.2 x List.mem_cons_self)
    | cons y ys =>
      obtain ⟨hmr, hmz⟩ := hm
      obtain ⟨hnr, hnz⟩ := hn
      simp only [rowsRise, Bool.and_eq_true, List.all_eq_true, decide_eq_true_eq] at hmr hnr
      simp only [cellRank] at hmr hnr
      have key : x.1 = y.1 := by
        rcases lt_trichotomy x.1 y.1 with lt | e | gt
        · have := h x.1
          rw [show Memory.read (y :: ys) x.1 = 0 by
            have : findRow cellRank x.1 (y :: ys) = none := findRow_eq_none_of_above cellRank fun z hz => by
              rcases List.mem_cons.1 hz with rfl | hz
              · exact lt
              · exact lt_trans lt (hnr.1 z hz)
            simp [Memory.read, this]] at this
          simp only [Memory.read, findRow, cellRank, if_true] at this
          exact absurd this (hmz x List.mem_cons_self)
        · exact e
        · have := h y.1
          rw [show Memory.read (x :: xs) y.1 = 0 by
            have : findRow cellRank y.1 (x :: xs) = none := findRow_eq_none_of_above cellRank fun z hz => by
              rcases List.mem_cons.1 hz with rfl | hz
              · exact gt
              · exact lt_trans gt (hmr.1 z hz)
            simp [Memory.read, this]] at this
          simp only [Memory.read, findRow, cellRank, if_true] at this
          exact absurd this.symm (hnz y List.mem_cons_self)
      have val : x.2 = y.2 := by
        have := h x.1
        simpa [Memory.read, findRow, cellRank, key] using this
      have tl : xs = ys := by
        refine ih (fun a => ?_) ⟨hmr.2, fun c hc => hmz c (List.mem_cons_of_mem _ hc)⟩
          ⟨hnr.2, fun c hc => hnz c (List.mem_cons_of_mem _ hc)⟩
        by_cases ha : x.1 = a
        · have nx : findRow cellRank a xs = none := findRow_eq_none_of_above cellRank fun z hz => ha ▸ hmr.1 z hz
          have ny : findRow cellRank a ys = none :=
            findRow_eq_none_of_above cellRank fun z hz => (key.symm.trans ha) ▸ hnr.1 z hz
          simp [Memory.read, nx, ny]
        · have := h a
          have hb : ¬ y.1 = a := fun e => ha (key.trans e)
          simpa [Memory.read, findRow, cellRank, ha, hb] using this
      rw [tl, show x = y from Prod.ext key val]

/-- The buffer right after reset is in canonical form. -/
theorem reset_wf : Memory.wf State.reset.reasmBuf = true := rfl

/-! ### The registry -/

theorem byte_toNat_ne {a b : Byte} (h : a ≠ b) : a.toNat ≠ b.toNat := fun e => h (BitVec.eq_of_toNat_eq e)

theorem rowKey_mk (k : Byte) (e : ServiceEntry) : rowKey (k, e) = k.toNat := rfl

/-- A lookup after an update of the map: the new entry for its key, the old one for any other. -/
theorem find_put (k k' : Byte) (e : ServiceEntry) (l : List (Byte × ServiceEntry)) :
    (findRow rowKey k'.toNat (putRow rowKey (k, e) l)).map Prod.snd =
      if k' = k then some e else (findRow rowKey k'.toNat l).map Prod.snd := by
  split
  · next h =>
    subst h
    rw [show findRow rowKey k'.toNat (putRow rowKey (k', e) l) = some (k', e) from findRow_putRow_same rowKey (k', e) l]; rfl
  · next h => rw [findRow_putRow_other rowKey (k, e) l (n := k'.toNat) (byte_toNat_ne h)]

/-- A lookup after a removal. -/
theorem find_drop (k k' : Byte) (l : List (Byte × ServiceEntry)) :
    (findRow rowKey k'.toNat (dropRow rowKey k.toNat l)).map Prod.snd =
      if k' = k then none else (findRow rowKey k'.toNat l).map Prod.snd := by
  split
  · next h => subst h; rw [findRow_dropRow_same]; rfl
  · next h => rw [findRow_dropRow_other rowKey (byte_toNat_ne h)]

end Sys2Proof.Machine
end

