-- ==== Sys2Proof/Laws/State.lean ====
section
/-! SUPPORT. One lemma per field of State per update: what each named update of the state leaves in each field. -/

namespace Sys2Proof.Machine

/-! ### emit -/

@[simp] theorem emit_cfg (e : Event) (s : State) : (emit e s).cfg = s.cfg := rfl
@[simp] theorem emit_live (e : Event) (s : State) : (emit e s).live = s.live := rfl
@[simp] theorem emit_sid (e : Event) (s : State) : (emit e s).sid = s.sid := rfl
@[simp] theorem emit_ssid (e : Event) (s : State) : (emit e s).ssid = s.ssid := rfl
@[simp] theorem emit_active (e : Event) (s : State) : (emit e s).active = s.active := rfl
@[simp] theorem emit_busy (e : Event) (s : State) : (emit e s).busy = s.busy := rfl
@[simp] theorem emit_tick (e : Event) (s : State) : (emit e s).tick = s.tick := rfl
@[simp] theorem emit_lastActivity (e : Event) (s : State) : (emit e s).lastActivity = s.lastActivity := rfl
@[simp] theorem emit_ncsActive (e : Event) (s : State) : (emit e s).ncsActive = s.ncsActive := rfl
@[simp] theorem emit_ncsMark (e : Event) (s : State) : (emit e s).ncsMark = s.ncsMark := rfl
@[simp] theorem emit_reasmState (e : Event) (s : State) : (emit e s).reasmState = s.reasmState := rfl
@[simp] theorem emit_reasmTotal (e : Event) (s : State) : (emit e s).reasmTotal = s.reasmTotal := rfl
@[simp] theorem emit_reasmRecv (e : Event) (s : State) : (emit e s).reasmRecv = s.reasmRecv := rfl
@[simp] theorem emit_reasmExpSn (e : Event) (s : State) : (emit e s).reasmExpSn = s.reasmExpSn := rfl
@[simp] theorem emit_reasmBuf (e : Event) (s : State) : (emit e s).reasmBuf = s.reasmBuf := rfl
@[simp] theorem emit_rxBuf (e : Event) (s : State) : (emit e s).rxBuf = s.rxBuf := rfl
@[simp] theorem emit_rxLen (e : Event) (s : State) : (emit e s).rxLen = s.rxLen := rfl
@[simp] theorem emit_reg (e : Event) (s : State) : (emit e s).reg = s.reg := rfl
@[simp] theorem emit_regRemaining (e : Event) (s : State) : (emit e s).regRemaining = s.regRemaining := rfl
@[simp] theorem emit_regChains (e : Event) (s : State) : (emit e s).regChains = s.regChains := rfl
@[simp] theorem emit_dispState (e : Event) (s : State) : (emit e s).dispState = s.dispState := rfl
@[simp] theorem emit_dispSid (e : Event) (s : State) : (emit e s).dispSid = s.dispSid := rfl
@[simp] theorem emit_fault (e : Event) (s : State) : (emit e s).fault = s.fault := rfl
@[simp] theorem emit_refused (e : Event) (s : State) : (emit e s).refused = s.refused := rfl
@[simp] theorem emit_trace (e : Event) (s : State) : (emit e s).trace = s.trace ++ [e] := rfl
@[simp] theorem emit_input (e : Event) (s : State) : (emit e s).input = s.input := rfl
@[simp] theorem emit_txAnswers (e : Event) (s : State) : (emit e s).txAnswers = s.txAnswers := rfl
@[simp] theorem emit_draws (e : Event) (s : State) : (emit e s).draws = s.draws := rfl

/-! ### takeInput -/

@[simp] theorem takeInput_cfg (s : State) : (takeInput s).cfg = s.cfg := rfl
@[simp] theorem takeInput_live (s : State) : (takeInput s).live = s.live := rfl
@[simp] theorem takeInput_sid (s : State) : (takeInput s).sid = s.sid := rfl
@[simp] theorem takeInput_ssid (s : State) : (takeInput s).ssid = s.ssid := rfl
@[simp] theorem takeInput_active (s : State) : (takeInput s).active = s.active := rfl
@[simp] theorem takeInput_busy (s : State) : (takeInput s).busy = s.busy := rfl
@[simp] theorem takeInput_tick (s : State) : (takeInput s).tick = s.tick := rfl
@[simp] theorem takeInput_lastActivity (s : State) : (takeInput s).lastActivity = s.lastActivity := rfl
@[simp] theorem takeInput_ncsActive (s : State) : (takeInput s).ncsActive = s.ncsActive := rfl
@[simp] theorem takeInput_ncsMark (s : State) : (takeInput s).ncsMark = s.ncsMark := rfl
@[simp] theorem takeInput_reasmState (s : State) : (takeInput s).reasmState = s.reasmState := rfl
@[simp] theorem takeInput_reasmTotal (s : State) : (takeInput s).reasmTotal = s.reasmTotal := rfl
@[simp] theorem takeInput_reasmRecv (s : State) : (takeInput s).reasmRecv = s.reasmRecv := rfl
@[simp] theorem takeInput_reasmExpSn (s : State) : (takeInput s).reasmExpSn = s.reasmExpSn := rfl
@[simp] theorem takeInput_reasmBuf (s : State) : (takeInput s).reasmBuf = s.reasmBuf := rfl
@[simp] theorem takeInput_rxBuf (s : State) : (takeInput s).rxBuf = s.rxBuf := rfl
@[simp] theorem takeInput_rxLen (s : State) : (takeInput s).rxLen = s.rxLen := rfl
@[simp] theorem takeInput_reg (s : State) : (takeInput s).reg = s.reg := rfl
@[simp] theorem takeInput_regRemaining (s : State) : (takeInput s).regRemaining = s.regRemaining := rfl
@[simp] theorem takeInput_regChains (s : State) : (takeInput s).regChains = s.regChains := rfl
@[simp] theorem takeInput_dispState (s : State) : (takeInput s).dispState = s.dispState := rfl
@[simp] theorem takeInput_dispSid (s : State) : (takeInput s).dispSid = s.dispSid := rfl
@[simp] theorem takeInput_fault (s : State) : (takeInput s).fault = s.fault := rfl
@[simp] theorem takeInput_refused (s : State) : (takeInput s).refused = s.refused := rfl
@[simp] theorem takeInput_trace (s : State) : (takeInput s).trace = s.trace := rfl
@[simp] theorem takeInput_input (s : State) : (takeInput s).input = s.input.tail := rfl
@[simp] theorem takeInput_txAnswers (s : State) : (takeInput s).txAnswers = s.txAnswers := rfl
@[simp] theorem takeInput_draws (s : State) : (takeInput s).draws = s.draws := rfl

/-! ### takeAnswer -/

@[simp] theorem takeAnswer_cfg (s : State) : (takeAnswer s).cfg = s.cfg := by unfold takeAnswer; split <;> simp_all
@[simp] theorem takeAnswer_live (s : State) : (takeAnswer s).live = s.live := by unfold takeAnswer; split <;> simp_all
@[simp] theorem takeAnswer_sid (s : State) : (takeAnswer s).sid = s.sid := by unfold takeAnswer; split <;> simp_all
@[simp] theorem takeAnswer_ssid (s : State) : (takeAnswer s).ssid = s.ssid := by unfold takeAnswer; split <;> simp_all
@[simp] theorem takeAnswer_active (s : State) : (takeAnswer s).active = s.active := by unfold takeAnswer; split <;> simp_all
@[simp] theorem takeAnswer_busy (s : State) : (takeAnswer s).busy = s.busy := by unfold takeAnswer; split <;> simp_all
@[simp] theorem takeAnswer_tick (s : State) : (takeAnswer s).tick = s.tick := by unfold takeAnswer; split <;> simp_all
@[simp] theorem takeAnswer_lastActivity (s : State) : (takeAnswer s).lastActivity = s.lastActivity := by unfold takeAnswer; split <;> simp_all
@[simp] theorem takeAnswer_ncsActive (s : State) : (takeAnswer s).ncsActive = s.ncsActive := by unfold takeAnswer; split <;> simp_all
@[simp] theorem takeAnswer_ncsMark (s : State) : (takeAnswer s).ncsMark = s.ncsMark := by unfold takeAnswer; split <;> simp_all
@[simp] theorem takeAnswer_reasmState (s : State) : (takeAnswer s).reasmState = s.reasmState := by unfold takeAnswer; split <;> simp_all
@[simp] theorem takeAnswer_reasmTotal (s : State) : (takeAnswer s).reasmTotal = s.reasmTotal := by unfold takeAnswer; split <;> simp_all
@[simp] theorem takeAnswer_reasmRecv (s : State) : (takeAnswer s).reasmRecv = s.reasmRecv := by unfold takeAnswer; split <;> simp_all
@[simp] theorem takeAnswer_reasmExpSn (s : State) : (takeAnswer s).reasmExpSn = s.reasmExpSn := by unfold takeAnswer; split <;> simp_all
@[simp] theorem takeAnswer_reasmBuf (s : State) : (takeAnswer s).reasmBuf = s.reasmBuf := by unfold takeAnswer; split <;> simp_all
@[simp] theorem takeAnswer_rxBuf (s : State) : (takeAnswer s).rxBuf = s.rxBuf := by unfold takeAnswer; split <;> simp_all
@[simp] theorem takeAnswer_rxLen (s : State) : (takeAnswer s).rxLen = s.rxLen := by unfold takeAnswer; split <;> simp_all
@[simp] theorem takeAnswer_reg (s : State) : (takeAnswer s).reg = s.reg := by unfold takeAnswer; split <;> simp_all
@[simp] theorem takeAnswer_regRemaining (s : State) : (takeAnswer s).regRemaining = s.regRemaining := by unfold takeAnswer; split <;> simp_all
@[simp] theorem takeAnswer_regChains (s : State) : (takeAnswer s).regChains = s.regChains := by unfold takeAnswer; split <;> simp_all
@[simp] theorem takeAnswer_dispState (s : State) : (takeAnswer s).dispState = s.dispState := by unfold takeAnswer; split <;> simp_all
@[simp] theorem takeAnswer_dispSid (s : State) : (takeAnswer s).dispSid = s.dispSid := by unfold takeAnswer; split <;> simp_all
@[simp] theorem takeAnswer_fault (s : State) : (takeAnswer s).fault = s.fault := by unfold takeAnswer; split <;> simp_all
@[simp] theorem takeAnswer_refused (s : State) : (takeAnswer s).refused = s.refused := by unfold takeAnswer; split <;> simp_all
@[simp] theorem takeAnswer_trace (s : State) : (takeAnswer s).trace = s.trace := by unfold takeAnswer; split <;> simp_all
@[simp] theorem takeAnswer_input (s : State) : (takeAnswer s).input = s.input := by unfold takeAnswer; split <;> simp_all
@[simp] theorem takeAnswer_txAnswers (s : State) : (takeAnswer s).txAnswers = s.txAnswers.tail := by unfold takeAnswer; split <;> simp_all

/-! ### abort -/

@[simp] theorem abort_cfg (s : State) : (abort s).cfg = s.cfg := rfl
@[simp] theorem abort_live (s : State) : (abort s).live = s.live := rfl
@[simp] theorem abort_sid (s : State) : (abort s).sid = s.sid := rfl
@[simp] theorem abort_ssid (s : State) : (abort s).ssid = s.ssid := rfl
@[simp] theorem abort_active (s : State) : (abort s).active = s.active := rfl
@[simp] theorem abort_busy (s : State) : (abort s).busy = s.busy := rfl
@[simp] theorem abort_tick (s : State) : (abort s).tick = s.tick := rfl
@[simp] theorem abort_lastActivity (s : State) : (abort s).lastActivity = s.lastActivity := rfl
@[simp] theorem abort_ncsActive (s : State) : (abort s).ncsActive = false := rfl
@[simp] theorem abort_ncsMark (s : State) : (abort s).ncsMark = s.ncsMark := rfl
@[simp] theorem abort_reasmState (s : State) : (abort s).reasmState = .idle := rfl
@[simp] theorem abort_reasmTotal (s : State) : (abort s).reasmTotal = 0 := rfl
@[simp] theorem abort_reasmRecv (s : State) : (abort s).reasmRecv = 0 := rfl
@[simp] theorem abort_reasmExpSn (s : State) : (abort s).reasmExpSn = 0 := rfl
@[simp] theorem abort_reasmBuf (s : State) : (abort s).reasmBuf = [] := rfl
@[simp] theorem abort_rxBuf (s : State) : (abort s).rxBuf = s.rxBuf := rfl
@[simp] theorem abort_rxLen (s : State) : (abort s).rxLen = s.rxLen := rfl
@[simp] theorem abort_reg (s : State) : (abort s).reg = s.reg := rfl
@[simp] theorem abort_regRemaining (s : State) : (abort s).regRemaining = s.regRemaining := rfl
@[simp] theorem abort_regChains (s : State) : (abort s).regChains = s.regChains := rfl
@[simp] theorem abort_dispState (s : State) : (abort s).dispState = s.dispState := rfl
@[simp] theorem abort_dispSid (s : State) : (abort s).dispSid = s.dispSid := rfl
@[simp] theorem abort_fault (s : State) : (abort s).fault = s.fault := rfl
@[simp] theorem abort_refused (s : State) : (abort s).refused = s.refused := rfl
@[simp] theorem abort_trace (s : State) : (abort s).trace = s.trace := rfl
@[simp] theorem abort_input (s : State) : (abort s).input = s.input := rfl
@[simp] theorem abort_txAnswers (s : State) : (abort s).txAnswers = s.txAnswers := rfl
@[simp] theorem abort_draws (s : State) : (abort s).draws = s.draws := rfl

/-! ### clearBuffers -/

@[simp] theorem clearBuffers_cfg (s : State) : (clearBuffers s).cfg = s.cfg := rfl
@[simp] theorem clearBuffers_live (s : State) : (clearBuffers s).live = s.live := rfl
@[simp] theorem clearBuffers_sid (s : State) : (clearBuffers s).sid = s.sid := rfl
@[simp] theorem clearBuffers_ssid (s : State) : (clearBuffers s).ssid = s.ssid := rfl
@[simp] theorem clearBuffers_active (s : State) : (clearBuffers s).active = s.active := rfl
@[simp] theorem clearBuffers_busy (s : State) : (clearBuffers s).busy = s.busy := rfl
@[simp] theorem clearBuffers_tick (s : State) : (clearBuffers s).tick = s.tick := rfl
@[simp] theorem clearBuffers_lastActivity (s : State) : (clearBuffers s).lastActivity = s.lastActivity := rfl
@[simp] theorem clearBuffers_ncsActive (s : State) : (clearBuffers s).ncsActive = false := rfl
@[simp] theorem clearBuffers_ncsMark (s : State) : (clearBuffers s).ncsMark = s.ncsMark := rfl
@[simp] theorem clearBuffers_reasmState (s : State) : (clearBuffers s).reasmState = .idle := rfl
@[simp] theorem clearBuffers_reasmTotal (s : State) : (clearBuffers s).reasmTotal = 0 := rfl
@[simp] theorem clearBuffers_reasmRecv (s : State) : (clearBuffers s).reasmRecv = 0 := rfl
@[simp] theorem clearBuffers_reasmExpSn (s : State) : (clearBuffers s).reasmExpSn = 0 := rfl
@[simp] theorem clearBuffers_reasmBuf (s : State) : (clearBuffers s).reasmBuf = [] := rfl
@[simp] theorem clearBuffers_rxBuf (s : State) : (clearBuffers s).rxBuf = Bytes7.zero := rfl
@[simp] theorem clearBuffers_rxLen (s : State) : (clearBuffers s).rxLen = 0 := rfl
@[simp] theorem clearBuffers_reg (s : State) : (clearBuffers s).reg = s.reg := rfl
@[simp] theorem clearBuffers_regRemaining (s : State) : (clearBuffers s).regRemaining = s.regRemaining := rfl
@[simp] theorem clearBuffers_regChains (s : State) : (clearBuffers s).regChains = s.regChains := rfl
@[simp] theorem clearBuffers_dispState (s : State) : (clearBuffers s).dispState = s.dispState := rfl
@[simp] theorem clearBuffers_dispSid (s : State) : (clearBuffers s).dispSid = s.dispSid := rfl
@[simp] theorem clearBuffers_fault (s : State) : (clearBuffers s).fault = s.fault := rfl
@[simp] theorem clearBuffers_refused (s : State) : (clearBuffers s).refused = s.refused := rfl
@[simp] theorem clearBuffers_trace (s : State) : (clearBuffers s).trace = s.trace := rfl
@[simp] theorem clearBuffers_input (s : State) : (clearBuffers s).input = s.input := rfl
@[simp] theorem clearBuffers_txAnswers (s : State) : (clearBuffers s).txAnswers = s.txAnswers := rfl
@[simp] theorem clearBuffers_draws (s : State) : (clearBuffers s).draws = s.draws := rfl

/-! ### finish -/

@[simp] theorem finish_cfg (s : State) : (finish s).cfg = s.cfg := rfl
@[simp] theorem finish_live (s : State) : (finish s).live = s.live := rfl
@[simp] theorem finish_sid (s : State) : (finish s).sid = s.sid := rfl
@[simp] theorem finish_ssid (s : State) : (finish s).ssid = s.ssid := rfl
@[simp] theorem finish_active (s : State) : (finish s).active = s.active := rfl
@[simp] theorem finish_busy (s : State) : (finish s).busy = s.busy := rfl
@[simp] theorem finish_tick (s : State) : (finish s).tick = s.tick := rfl
@[simp] theorem finish_lastActivity (s : State) : (finish s).lastActivity = s.lastActivity := rfl
@[simp] theorem finish_ncsActive (s : State) : (finish s).ncsActive = false := rfl
@[simp] theorem finish_ncsMark (s : State) : (finish s).ncsMark = s.ncsMark := rfl
@[simp] theorem finish_reasmState (s : State) : (finish s).reasmState = .idle := rfl
@[simp] theorem finish_reasmTotal (s : State) : (finish s).reasmTotal = 0 := rfl
@[simp] theorem finish_reasmRecv (s : State) : (finish s).reasmRecv = 0 := rfl
@[simp] theorem finish_reasmExpSn (s : State) : (finish s).reasmExpSn = 0 := rfl
@[simp] theorem finish_reasmBuf (s : State) : (finish s).reasmBuf = [] := rfl
@[simp] theorem finish_rxBuf (s : State) : (finish s).rxBuf = Bytes7.zero := rfl
@[simp] theorem finish_rxLen (s : State) : (finish s).rxLen = 0 := rfl
@[simp] theorem finish_reg (s : State) : (finish s).reg = s.reg := rfl
@[simp] theorem finish_regRemaining (s : State) : (finish s).regRemaining = s.regRemaining := rfl
@[simp] theorem finish_regChains (s : State) : (finish s).regChains = s.regChains := rfl
@[simp] theorem finish_dispState (s : State) : (finish s).dispState = .idle := rfl
@[simp] theorem finish_dispSid (s : State) : (finish s).dispSid = s.dispSid := rfl
@[simp] theorem finish_fault (s : State) : (finish s).fault = s.fault := rfl
@[simp] theorem finish_refused (s : State) : (finish s).refused = s.refused := rfl
@[simp] theorem finish_trace (s : State) : (finish s).trace = s.trace := rfl
@[simp] theorem finish_input (s : State) : (finish s).input = s.input := rfl
@[simp] theorem finish_txAnswers (s : State) : (finish s).txAnswers = s.txAnswers := rfl
@[simp] theorem finish_draws (s : State) : (finish s).draws = s.draws := rfl

/-! ### takeRequest -/

@[simp] theorem takeRequest_cfg (s : State) : (takeRequest s).cfg = s.cfg := rfl
@[simp] theorem takeRequest_live (s : State) : (takeRequest s).live = s.live := rfl
@[simp] theorem takeRequest_sid (s : State) : (takeRequest s).sid = s.sid := rfl
@[simp] theorem takeRequest_ssid (s : State) : (takeRequest s).ssid = s.ssid := rfl
@[simp] theorem takeRequest_active (s : State) : (takeRequest s).active = .none := rfl
@[simp] theorem takeRequest_busy (s : State) : (takeRequest s).busy = s.busy := rfl
@[simp] theorem takeRequest_tick (s : State) : (takeRequest s).tick = s.tick := rfl
@[simp] theorem takeRequest_lastActivity (s : State) : (takeRequest s).lastActivity = s.lastActivity := rfl
@[simp] theorem takeRequest_ncsActive (s : State) : (takeRequest s).ncsActive = s.ncsActive := rfl
@[simp] theorem takeRequest_ncsMark (s : State) : (takeRequest s).ncsMark = s.ncsMark := rfl
@[simp] theorem takeRequest_reasmState (s : State) : (takeRequest s).reasmState = s.reasmState := rfl
@[simp] theorem takeRequest_reasmTotal (s : State) : (takeRequest s).reasmTotal = s.reasmTotal := rfl
@[simp] theorem takeRequest_reasmRecv (s : State) : (takeRequest s).reasmRecv = s.reasmRecv := rfl
@[simp] theorem takeRequest_reasmExpSn (s : State) : (takeRequest s).reasmExpSn = s.reasmExpSn := rfl
@[simp] theorem takeRequest_reasmBuf (s : State) : (takeRequest s).reasmBuf = s.reasmBuf := rfl
@[simp] theorem takeRequest_rxBuf (s : State) : (takeRequest s).rxBuf = s.rxBuf := rfl
@[simp] theorem takeRequest_rxLen (s : State) : (takeRequest s).rxLen = s.rxLen := rfl
@[simp] theorem takeRequest_reg (s : State) : (takeRequest s).reg = s.reg := rfl
@[simp] theorem takeRequest_regRemaining (s : State) : (takeRequest s).regRemaining = s.regRemaining := rfl
@[simp] theorem takeRequest_regChains (s : State) : (takeRequest s).regChains = s.regChains := rfl
@[simp] theorem takeRequest_dispState (s : State) : (takeRequest s).dispState = s.dispState := rfl
@[simp] theorem takeRequest_dispSid (s : State) : (takeRequest s).dispSid = s.dispSid := rfl
@[simp] theorem takeRequest_fault (s : State) : (takeRequest s).fault = s.fault := rfl
@[simp] theorem takeRequest_refused (s : State) : (takeRequest s).refused = s.refused := rfl
@[simp] theorem takeRequest_trace (s : State) : (takeRequest s).trace = s.trace := rfl
@[simp] theorem takeRequest_input (s : State) : (takeRequest s).input = s.input := rfl
@[simp] theorem takeRequest_txAnswers (s : State) : (takeRequest s).txAnswers = s.txAnswers := rfl
@[simp] theorem takeRequest_draws (s : State) : (takeRequest s).draws = s.draws := rfl

/-! ### latchDispatched -/

@[simp] theorem latchDispatched_cfg (s : State) : (latchDispatched s).cfg = s.cfg := rfl
@[simp] theorem latchDispatched_live (s : State) : (latchDispatched s).live = s.live := rfl
@[simp] theorem latchDispatched_sid (s : State) : (latchDispatched s).sid = s.sid := rfl
@[simp] theorem latchDispatched_ssid (s : State) : (latchDispatched s).ssid = s.ssid := rfl
@[simp] theorem latchDispatched_active (s : State) : (latchDispatched s).active = s.active := rfl
@[simp] theorem latchDispatched_busy (s : State) : (latchDispatched s).busy = s.busy := rfl
@[simp] theorem latchDispatched_tick (s : State) : (latchDispatched s).tick = s.tick := rfl
@[simp] theorem latchDispatched_lastActivity (s : State) : (latchDispatched s).lastActivity = s.lastActivity := rfl
@[simp] theorem latchDispatched_ncsActive (s : State) : (latchDispatched s).ncsActive = s.ncsActive := rfl
@[simp] theorem latchDispatched_ncsMark (s : State) : (latchDispatched s).ncsMark = s.ncsMark := rfl
@[simp] theorem latchDispatched_reasmState (s : State) : (latchDispatched s).reasmState = s.reasmState := rfl
@[simp] theorem latchDispatched_reasmTotal (s : State) : (latchDispatched s).reasmTotal = s.reasmTotal := rfl
@[simp] theorem latchDispatched_reasmRecv (s : State) : (latchDispatched s).reasmRecv = s.reasmRecv := rfl
@[simp] theorem latchDispatched_reasmExpSn (s : State) : (latchDispatched s).reasmExpSn = s.reasmExpSn := rfl
@[simp] theorem latchDispatched_reasmBuf (s : State) : (latchDispatched s).reasmBuf = s.reasmBuf := rfl
@[simp] theorem latchDispatched_rxBuf (s : State) : (latchDispatched s).rxBuf = s.rxBuf := rfl
@[simp] theorem latchDispatched_rxLen (s : State) : (latchDispatched s).rxLen = s.rxLen := rfl
@[simp] theorem latchDispatched_reg (s : State) : (latchDispatched s).reg = s.reg := rfl
@[simp] theorem latchDispatched_regRemaining (s : State) : (latchDispatched s).regRemaining = s.regRemaining := rfl
@[simp] theorem latchDispatched_regChains (s : State) : (latchDispatched s).regChains = s.regChains := rfl
@[simp] theorem latchDispatched_dispState (s : State) : (latchDispatched s).dispState = s.dispState := rfl
@[simp] theorem latchDispatched_dispSid (s : State) : (latchDispatched s).dispSid = s.sid := rfl
@[simp] theorem latchDispatched_fault (s : State) : (latchDispatched s).fault = s.fault := rfl
@[simp] theorem latchDispatched_refused (s : State) : (latchDispatched s).refused = s.refused := rfl
@[simp] theorem latchDispatched_trace (s : State) : (latchDispatched s).trace = s.trace := rfl
@[simp] theorem latchDispatched_input (s : State) : (latchDispatched s).input = s.input := rfl
@[simp] theorem latchDispatched_txAnswers (s : State) : (latchDispatched s).txAnswers = s.txAnswers := rfl
@[simp] theorem latchDispatched_draws (s : State) : (latchDispatched s).draws = s.draws := rfl

/-! ### endCall -/

@[simp] theorem endCall_cfg (s : State) : (endCall s).cfg = s.cfg := rfl
@[simp] theorem endCall_live (s : State) : (endCall s).live = s.live := rfl
@[simp] theorem endCall_sid (s : State) : (endCall s).sid = s.sid := rfl
@[simp] theorem endCall_ssid (s : State) : (endCall s).ssid = s.ssid := rfl
@[simp] theorem endCall_active (s : State) : (endCall s).active = s.active := rfl
@[simp] theorem endCall_busy (s : State) : (endCall s).busy = false := rfl
@[simp] theorem endCall_tick (s : State) : (endCall s).tick = s.tick := rfl
@[simp] theorem endCall_lastActivity (s : State) : (endCall s).lastActivity = s.lastActivity := rfl
@[simp] theorem endCall_ncsActive (s : State) : (endCall s).ncsActive = s.ncsActive := rfl
@[simp] theorem endCall_ncsMark (s : State) : (endCall s).ncsMark = s.ncsMark := rfl
@[simp] theorem endCall_reasmState (s : State) : (endCall s).reasmState = s.reasmState := rfl
@[simp] theorem endCall_reasmTotal (s : State) : (endCall s).reasmTotal = s.reasmTotal := rfl
@[simp] theorem endCall_reasmRecv (s : State) : (endCall s).reasmRecv = s.reasmRecv := rfl
@[simp] theorem endCall_reasmExpSn (s : State) : (endCall s).reasmExpSn = s.reasmExpSn := rfl
@[simp] theorem endCall_reasmBuf (s : State) : (endCall s).reasmBuf = s.reasmBuf := rfl
@[simp] theorem endCall_rxBuf (s : State) : (endCall s).rxBuf = s.rxBuf := rfl
@[simp] theorem endCall_rxLen (s : State) : (endCall s).rxLen = s.rxLen := rfl
@[simp] theorem endCall_reg (s : State) : (endCall s).reg = s.reg := rfl
@[simp] theorem endCall_regRemaining (s : State) : (endCall s).regRemaining = s.regRemaining := rfl
@[simp] theorem endCall_regChains (s : State) : (endCall s).regChains = s.regChains := rfl
@[simp] theorem endCall_dispState (s : State) : (endCall s).dispState = .idle := rfl
@[simp] theorem endCall_dispSid (s : State) : (endCall s).dispSid = s.dispSid := rfl
@[simp] theorem endCall_fault (s : State) : (endCall s).fault = s.fault := rfl
@[simp] theorem endCall_refused (s : State) : (endCall s).refused = s.refused := rfl
@[simp] theorem endCall_trace (s : State) : (endCall s).trace = s.trace := rfl
@[simp] theorem endCall_input (s : State) : (endCall s).input = s.input := rfl
@[simp] theorem endCall_txAnswers (s : State) : (endCall s).txAnswers = s.txAnswers := rfl
@[simp] theorem endCall_draws (s : State) : (endCall s).draws = s.draws := rfl

/-! ### callHandler -/

@[simp] theorem callHandler_cfg (k : HandlerKind) (hid : Byte) (prm : Word) (s : State) : (callHandler k hid prm s).cfg = s.cfg := rfl
@[simp] theorem callHandler_live (k : HandlerKind) (hid : Byte) (prm : Word) (s : State) : (callHandler k hid prm s).live = s.live := rfl
@[simp] theorem callHandler_sid (k : HandlerKind) (hid : Byte) (prm : Word) (s : State) : (callHandler k hid prm s).sid = s.sid := rfl
@[simp] theorem callHandler_ssid (k : HandlerKind) (hid : Byte) (prm : Word) (s : State) : (callHandler k hid prm s).ssid = s.ssid := rfl
@[simp] theorem callHandler_active (k : HandlerKind) (hid : Byte) (prm : Word) (s : State) : (callHandler k hid prm s).active = s.active := rfl
@[simp] theorem callHandler_busy (k : HandlerKind) (hid : Byte) (prm : Word) (s : State) : (callHandler k hid prm s).busy = true := rfl
@[simp] theorem callHandler_tick (k : HandlerKind) (hid : Byte) (prm : Word) (s : State) : (callHandler k hid prm s).tick = s.tick := rfl
@[simp] theorem callHandler_lastActivity (k : HandlerKind) (hid : Byte) (prm : Word) (s : State) : (callHandler k hid prm s).lastActivity = s.lastActivity := rfl
@[simp] theorem callHandler_ncsActive (k : HandlerKind) (hid : Byte) (prm : Word) (s : State) : (callHandler k hid prm s).ncsActive = s.ncsActive := rfl
@[simp] theorem callHandler_ncsMark (k : HandlerKind) (hid : Byte) (prm : Word) (s : State) : (callHandler k hid prm s).ncsMark = s.ncsMark := rfl
@[simp] theorem callHandler_reasmState (k : HandlerKind) (hid : Byte) (prm : Word) (s : State) : (callHandler k hid prm s).reasmState = s.reasmState := rfl
@[simp] theorem callHandler_reasmTotal (k : HandlerKind) (hid : Byte) (prm : Word) (s : State) : (callHandler k hid prm s).reasmTotal = s.reasmTotal := rfl
@[simp] theorem callHandler_reasmRecv (k : HandlerKind) (hid : Byte) (prm : Word) (s : State) : (callHandler k hid prm s).reasmRecv = s.reasmRecv := rfl
@[simp] theorem callHandler_reasmExpSn (k : HandlerKind) (hid : Byte) (prm : Word) (s : State) : (callHandler k hid prm s).reasmExpSn = s.reasmExpSn := rfl
@[simp] theorem callHandler_reasmBuf (k : HandlerKind) (hid : Byte) (prm : Word) (s : State) : (callHandler k hid prm s).reasmBuf = s.reasmBuf := rfl
@[simp] theorem callHandler_rxBuf (k : HandlerKind) (hid : Byte) (prm : Word) (s : State) : (callHandler k hid prm s).rxBuf = s.rxBuf := rfl
@[simp] theorem callHandler_rxLen (k : HandlerKind) (hid : Byte) (prm : Word) (s : State) : (callHandler k hid prm s).rxLen = s.rxLen := rfl
@[simp] theorem callHandler_reg (k : HandlerKind) (hid : Byte) (prm : Word) (s : State) : (callHandler k hid prm s).reg = s.reg := rfl
@[simp] theorem callHandler_regRemaining (k : HandlerKind) (hid : Byte) (prm : Word) (s : State) : (callHandler k hid prm s).regRemaining = s.regRemaining := rfl
@[simp] theorem callHandler_regChains (k : HandlerKind) (hid : Byte) (prm : Word) (s : State) : (callHandler k hid prm s).regChains = s.regChains := rfl
@[simp] theorem callHandler_dispState (k : HandlerKind) (hid : Byte) (prm : Word) (s : State) : (callHandler k hid prm s).dispState = (match k with | .service => .waitService | .subfunction => .waitSub) := rfl
@[simp] theorem callHandler_dispSid (k : HandlerKind) (hid : Byte) (prm : Word) (s : State) : (callHandler k hid prm s).dispSid = s.dispSid := rfl
@[simp] theorem callHandler_fault (k : HandlerKind) (hid : Byte) (prm : Word) (s : State) : (callHandler k hid prm s).fault = s.fault := rfl
@[simp] theorem callHandler_refused (k : HandlerKind) (hid : Byte) (prm : Word) (s : State) : (callHandler k hid prm s).refused = s.refused := rfl
@[simp] theorem callHandler_trace (k : HandlerKind) (hid : Byte) (prm : Word) (s : State) : (callHandler k hid prm s).trace = s.trace ++ [.hcall k s.dispSid s.ssid hid prm] := rfl
@[simp] theorem callHandler_input (k : HandlerKind) (hid : Byte) (prm : Word) (s : State) : (callHandler k hid prm s).input = s.input := rfl
@[simp] theorem callHandler_txAnswers (k : HandlerKind) (hid : Byte) (prm : Word) (s : State) : (callHandler k hid prm s).txAnswers = s.txAnswers := rfl
@[simp] theorem callHandler_draws (k : HandlerKind) (hid : Byte) (prm : Word) (s : State) : (callHandler k hid prm s).draws = s.draws := rfl

/-! ### startNcs -/

@[simp] theorem startNcs_cfg (s : State) : (startNcs s).cfg = s.cfg := rfl
@[simp] theorem startNcs_live (s : State) : (startNcs s).live = s.live := rfl
@[simp] theorem startNcs_sid (s : State) : (startNcs s).sid = s.sid := rfl
@[simp] theorem startNcs_ssid (s : State) : (startNcs s).ssid = s.ssid := rfl
@[simp] theorem startNcs_active (s : State) : (startNcs s).active = s.active := rfl
@[simp] theorem startNcs_busy (s : State) : (startNcs s).busy = s.busy := rfl
@[simp] theorem startNcs_tick (s : State) : (startNcs s).tick = s.tick := rfl
@[simp] theorem startNcs_lastActivity (s : State) : (startNcs s).lastActivity = s.lastActivity := rfl
@[simp] theorem startNcs_ncsActive (s : State) : (startNcs s).ncsActive = true := rfl
@[simp] theorem startNcs_ncsMark (s : State) : (startNcs s).ncsMark = s.tick := rfl
@[simp] theorem startNcs_reasmState (s : State) : (startNcs s).reasmState = s.reasmState := rfl
@[simp] theorem startNcs_reasmTotal (s : State) : (startNcs s).reasmTotal = s.reasmTotal := rfl
@[simp] theorem startNcs_reasmRecv (s : State) : (startNcs s).reasmRecv = s.reasmRecv := rfl
@[simp] theorem startNcs_reasmExpSn (s : State) : (startNcs s).reasmExpSn = s.reasmExpSn := rfl
@[simp] theorem startNcs_reasmBuf (s : State) : (startNcs s).reasmBuf = s.reasmBuf := rfl
@[simp] theorem startNcs_rxBuf (s : State) : (startNcs s).rxBuf = s.rxBuf := rfl
@[simp] theorem startNcs_rxLen (s : State) : (startNcs s).rxLen = s.rxLen := rfl
@[simp] theorem startNcs_reg (s : State) : (startNcs s).reg = s.reg := rfl
@[simp] theorem startNcs_regRemaining (s : State) : (startNcs s).regRemaining = s.regRemaining := rfl
@[simp] theorem startNcs_regChains (s : State) : (startNcs s).regChains = s.regChains := rfl
@[simp] theorem startNcs_dispState (s : State) : (startNcs s).dispState = s.dispState := rfl
@[simp] theorem startNcs_dispSid (s : State) : (startNcs s).dispSid = s.dispSid := rfl
@[simp] theorem startNcs_fault (s : State) : (startNcs s).fault = s.fault := rfl
@[simp] theorem startNcs_refused (s : State) : (startNcs s).refused = s.refused := rfl
@[simp] theorem startNcs_trace (s : State) : (startNcs s).trace = s.trace := rfl
@[simp] theorem startNcs_input (s : State) : (startNcs s).input = s.input := rfl
@[simp] theorem startNcs_txAnswers (s : State) : (startNcs s).txAnswers = s.txAnswers := rfl
@[simp] theorem startNcs_draws (s : State) : (startNcs s).draws = s.draws := rfl

/-! ### latchFirst -/

@[simp] theorem latchFirst_cfg (t : Len12) (p : Bytes6) (s : State) : (latchFirst t p s).cfg = s.cfg := rfl
@[simp] theorem latchFirst_live (t : Len12) (p : Bytes6) (s : State) : (latchFirst t p s).live = s.live := rfl
@[simp] theorem latchFirst_sid (t : Len12) (p : Bytes6) (s : State) : (latchFirst t p s).sid = p.b0 := rfl
@[simp] theorem latchFirst_ssid (t : Len12) (p : Bytes6) (s : State) : (latchFirst t p s).ssid = if s.cfg.ffLatchesSsid then p.b1 else s.ssid := rfl
@[simp] theorem latchFirst_active (t : Len12) (p : Bytes6) (s : State) : (latchFirst t p s).active = s.active := rfl
@[simp] theorem latchFirst_busy (t : Len12) (p : Bytes6) (s : State) : (latchFirst t p s).busy = s.busy := rfl
@[simp] theorem latchFirst_tick (t : Len12) (p : Bytes6) (s : State) : (latchFirst t p s).tick = s.tick := rfl
@[simp] theorem latchFirst_lastActivity (t : Len12) (p : Bytes6) (s : State) : (latchFirst t p s).lastActivity = s.lastActivity := rfl
@[simp] theorem latchFirst_ncsActive (t : Len12) (p : Bytes6) (s : State) : (latchFirst t p s).ncsActive = s.ncsActive := rfl
@[simp] theorem latchFirst_ncsMark (t : Len12) (p : Bytes6) (s : State) : (latchFirst t p s).ncsMark = s.ncsMark := rfl
@[simp] theorem latchFirst_reasmState (t : Len12) (p : Bytes6) (s : State) : (latchFirst t p s).reasmState = .receiving := rfl
@[simp] theorem latchFirst_reasmTotal (t : Len12) (p : Bytes6) (s : State) : (latchFirst t p s).reasmTotal = t := rfl
@[simp] theorem latchFirst_reasmRecv (t : Len12) (p : Bytes6) (s : State) : (latchFirst t p s).reasmRecv = 6 := rfl
@[simp] theorem latchFirst_reasmExpSn (t : Len12) (p : Bytes6) (s : State) : (latchFirst t p s).reasmExpSn = 1 := rfl
@[simp] theorem latchFirst_reasmBuf (t : Len12) (p : Bytes6) (s : State) : (latchFirst t p s).reasmBuf = Memory.writeBytes s.reasmBuf 0 p.toList := rfl
@[simp] theorem latchFirst_rxBuf (t : Len12) (p : Bytes6) (s : State) : (latchFirst t p s).rxBuf = s.rxBuf := rfl
@[simp] theorem latchFirst_rxLen (t : Len12) (p : Bytes6) (s : State) : (latchFirst t p s).rxLen = s.rxLen := rfl
@[simp] theorem latchFirst_reg (t : Len12) (p : Bytes6) (s : State) : (latchFirst t p s).reg = s.reg := rfl
@[simp] theorem latchFirst_regRemaining (t : Len12) (p : Bytes6) (s : State) : (latchFirst t p s).regRemaining = s.regRemaining := rfl
@[simp] theorem latchFirst_regChains (t : Len12) (p : Bytes6) (s : State) : (latchFirst t p s).regChains = s.regChains := rfl
@[simp] theorem latchFirst_dispState (t : Len12) (p : Bytes6) (s : State) : (latchFirst t p s).dispState = s.dispState := rfl
@[simp] theorem latchFirst_dispSid (t : Len12) (p : Bytes6) (s : State) : (latchFirst t p s).dispSid = s.dispSid := rfl
@[simp] theorem latchFirst_fault (t : Len12) (p : Bytes6) (s : State) : (latchFirst t p s).fault = s.fault := rfl
@[simp] theorem latchFirst_refused (t : Len12) (p : Bytes6) (s : State) : (latchFirst t p s).refused = s.refused := rfl
@[simp] theorem latchFirst_trace (t : Len12) (p : Bytes6) (s : State) : (latchFirst t p s).trace = s.trace := rfl
@[simp] theorem latchFirst_input (t : Len12) (p : Bytes6) (s : State) : (latchFirst t p s).input = s.input := rfl
@[simp] theorem latchFirst_txAnswers (t : Len12) (p : Bytes6) (s : State) : (latchFirst t p s).txAnswers = s.txAnswers := rfl
@[simp] theorem latchFirst_draws (t : Len12) (p : Bytes6) (s : State) : (latchFirst t p s).draws = s.draws := rfl

/-! ### transmit -/

@[simp] theorem transmit_cfg (f : Frame) (s : State) : ((transmit f s).2).cfg = s.cfg := by unfold transmit; split <;> simp
@[simp] theorem transmit_live (f : Frame) (s : State) : ((transmit f s).2).live = s.live := by unfold transmit; split <;> simp
@[simp] theorem transmit_sid (f : Frame) (s : State) : ((transmit f s).2).sid = s.sid := by unfold transmit; split <;> simp
@[simp] theorem transmit_ssid (f : Frame) (s : State) : ((transmit f s).2).ssid = s.ssid := by unfold transmit; split <;> simp
@[simp] theorem transmit_active (f : Frame) (s : State) : ((transmit f s).2).active = s.active := by unfold transmit; split <;> simp
@[simp] theorem transmit_busy (f : Frame) (s : State) : ((transmit f s).2).busy = s.busy := by unfold transmit; split <;> simp
@[simp] theorem transmit_tick (f : Frame) (s : State) : ((transmit f s).2).tick = s.tick := by unfold transmit; split <;> simp
@[simp] theorem transmit_lastActivity (f : Frame) (s : State) : ((transmit f s).2).lastActivity = s.lastActivity := by unfold transmit; split <;> simp
@[simp] theorem transmit_ncsActive (f : Frame) (s : State) : ((transmit f s).2).ncsActive = s.ncsActive := by unfold transmit; split <;> simp
@[simp] theorem transmit_ncsMark (f : Frame) (s : State) : ((transmit f s).2).ncsMark = s.ncsMark := by unfold transmit; split <;> simp
@[simp] theorem transmit_reasmState (f : Frame) (s : State) : ((transmit f s).2).reasmState = s.reasmState := by unfold transmit; split <;> simp
@[simp] theorem transmit_reasmTotal (f : Frame) (s : State) : ((transmit f s).2).reasmTotal = s.reasmTotal := by unfold transmit; split <;> simp
@[simp] theorem transmit_reasmRecv (f : Frame) (s : State) : ((transmit f s).2).reasmRecv = s.reasmRecv := by unfold transmit; split <;> simp
@[simp] theorem transmit_reasmExpSn (f : Frame) (s : State) : ((transmit f s).2).reasmExpSn = s.reasmExpSn := by unfold transmit; split <;> simp
@[simp] theorem transmit_reasmBuf (f : Frame) (s : State) : ((transmit f s).2).reasmBuf = s.reasmBuf := by unfold transmit; split <;> simp
@[simp] theorem transmit_rxBuf (f : Frame) (s : State) : ((transmit f s).2).rxBuf = s.rxBuf := by unfold transmit; split <;> simp
@[simp] theorem transmit_rxLen (f : Frame) (s : State) : ((transmit f s).2).rxLen = s.rxLen := by unfold transmit; split <;> simp
@[simp] theorem transmit_reg (f : Frame) (s : State) : ((transmit f s).2).reg = s.reg := by unfold transmit; split <;> simp
@[simp] theorem transmit_regRemaining (f : Frame) (s : State) : ((transmit f s).2).regRemaining = s.regRemaining := by unfold transmit; split <;> simp
@[simp] theorem transmit_regChains (f : Frame) (s : State) : ((transmit f s).2).regChains = s.regChains := by unfold transmit; split <;> simp
@[simp] theorem transmit_dispState (f : Frame) (s : State) : ((transmit f s).2).dispState = s.dispState := by unfold transmit; split <;> simp
@[simp] theorem transmit_dispSid (f : Frame) (s : State) : ((transmit f s).2).dispSid = s.dispSid := by unfold transmit; split <;> simp
@[simp] theorem transmit_fault (f : Frame) (s : State) : ((transmit f s).2).fault = s.fault := by unfold transmit; split <;> simp
@[simp] theorem transmit_refused (f : Frame) (s : State) : ((transmit f s).2).refused = s.refused := by unfold transmit; split <;> simp
@[simp] theorem transmit_input (f : Frame) (s : State) : ((transmit f s).2).input = s.input := by unfold transmit; split <;> simp

/-! ### respond -/

@[simp] theorem respond_cfg (pl : List Byte) (s : State) : ((respond pl s).2).cfg = s.cfg := by unfold respond; split <;> simp
@[simp] theorem respond_live (pl : List Byte) (s : State) : ((respond pl s).2).live = s.live := by unfold respond; split <;> simp
@[simp] theorem respond_sid (pl : List Byte) (s : State) : ((respond pl s).2).sid = s.sid := by unfold respond; split <;> simp
@[simp] theorem respond_ssid (pl : List Byte) (s : State) : ((respond pl s).2).ssid = s.ssid := by unfold respond; split <;> simp
@[simp] theorem respond_active (pl : List Byte) (s : State) : ((respond pl s).2).active = s.active := by unfold respond; split <;> simp
@[simp] theorem respond_busy (pl : List Byte) (s : State) : ((respond pl s).2).busy = s.busy := by unfold respond; split <;> simp
@[simp] theorem respond_tick (pl : List Byte) (s : State) : ((respond pl s).2).tick = s.tick := by unfold respond; split <;> simp
@[simp] theorem respond_lastActivity (pl : List Byte) (s : State) : ((respond pl s).2).lastActivity = s.lastActivity := by unfold respond; split <;> simp
@[simp] theorem respond_ncsActive (pl : List Byte) (s : State) : ((respond pl s).2).ncsActive = s.ncsActive := by unfold respond; split <;> simp
@[simp] theorem respond_ncsMark (pl : List Byte) (s : State) : ((respond pl s).2).ncsMark = s.ncsMark := by unfold respond; split <;> simp
@[simp] theorem respond_reasmState (pl : List Byte) (s : State) : ((respond pl s).2).reasmState = s.reasmState := by unfold respond; split <;> simp
@[simp] theorem respond_reasmTotal (pl : List Byte) (s : State) : ((respond pl s).2).reasmTotal = s.reasmTotal := by unfold respond; split <;> simp
@[simp] theorem respond_reasmRecv (pl : List Byte) (s : State) : ((respond pl s).2).reasmRecv = s.reasmRecv := by unfold respond; split <;> simp
@[simp] theorem respond_reasmExpSn (pl : List Byte) (s : State) : ((respond pl s).2).reasmExpSn = s.reasmExpSn := by unfold respond; split <;> simp
@[simp] theorem respond_reasmBuf (pl : List Byte) (s : State) : ((respond pl s).2).reasmBuf = s.reasmBuf := by unfold respond; split <;> simp
@[simp] theorem respond_rxBuf (pl : List Byte) (s : State) : ((respond pl s).2).rxBuf = s.rxBuf := by unfold respond; split <;> simp
@[simp] theorem respond_rxLen (pl : List Byte) (s : State) : ((respond pl s).2).rxLen = s.rxLen := by unfold respond; split <;> simp
@[simp] theorem respond_reg (pl : List Byte) (s : State) : ((respond pl s).2).reg = s.reg := by unfold respond; split <;> simp
@[simp] theorem respond_regRemaining (pl : List Byte) (s : State) : ((respond pl s).2).regRemaining = s.regRemaining := by unfold respond; split <;> simp
@[simp] theorem respond_regChains (pl : List Byte) (s : State) : ((respond pl s).2).regChains = s.regChains := by unfold respond; split <;> simp
@[simp] theorem respond_dispState (pl : List Byte) (s : State) : ((respond pl s).2).dispState = s.dispState := by unfold respond; split <;> simp
@[simp] theorem respond_dispSid (pl : List Byte) (s : State) : ((respond pl s).2).dispSid = s.dispSid := by unfold respond; split <;> simp
@[simp] theorem respond_fault (pl : List Byte) (s : State) : ((respond pl s).2).fault = s.fault := by unfold respond; split <;> simp
@[simp] theorem respond_refused (pl : List Byte) (s : State) : ((respond pl s).2).refused = s.refused := by unfold respond; split <;> simp
@[simp] theorem respond_input (pl : List Byte) (s : State) : ((respond pl s).2).input = s.input := by unfold respond; split <;> simp

/-! ### respondPositive -/

@[simp] theorem respondPositive_cfg (s : State) : ((respondPositive s).2).cfg = s.cfg := by simp [respondPositive]
@[simp] theorem respondPositive_live (s : State) : ((respondPositive s).2).live = s.live := by simp [respondPositive]
@[simp] theorem respondPositive_sid (s : State) : ((respondPositive s).2).sid = s.sid := by simp [respondPositive]
@[simp] theorem respondPositive_ssid (s : State) : ((respondPositive s).2).ssid = s.ssid := by simp [respondPositive]
@[simp] theorem respondPositive_active (s : State) : ((respondPositive s).2).active = s.active := by simp [respondPositive]
@[simp] theorem respondPositive_busy (s : State) : ((respondPositive s).2).busy = s.busy := by simp [respondPositive]
@[simp] theorem respondPositive_tick (s : State) : ((respondPositive s).2).tick = s.tick := by simp [respondPositive]
@[simp] theorem respondPositive_lastActivity (s : State) : ((respondPositive s).2).lastActivity = s.lastActivity := by simp [respondPositive]
@[simp] theorem respondPositive_ncsActive (s : State) : ((respondPositive s).2).ncsActive = s.ncsActive := by simp [respondPositive]
@[simp] theorem respondPositive_ncsMark (s : State) : ((respondPositive s).2).ncsMark = s.ncsMark := by simp [respondPositive]
@[simp] theorem respondPositive_reasmState (s : State) : ((respondPositive s).2).reasmState = s.reasmState := by simp [respondPositive]
@[simp] theorem respondPositive_reasmTotal (s : State) : ((respondPositive s).2).reasmTotal = s.reasmTotal := by simp [respondPositive]
@[simp] theorem respondPositive_reasmRecv (s : State) : ((respondPositive s).2).reasmRecv = s.reasmRecv := by simp [respondPositive]
@[simp] theorem respondPositive_reasmExpSn (s : State) : ((respondPositive s).2).reasmExpSn = s.reasmExpSn := by simp [respondPositive]
@[simp] theorem respondPositive_reasmBuf (s : State) : ((respondPositive s).2).reasmBuf = s.reasmBuf := by simp [respondPositive]
@[simp] theorem respondPositive_rxBuf (s : State) : ((respondPositive s).2).rxBuf = s.rxBuf := by simp [respondPositive]
@[simp] theorem respondPositive_rxLen (s : State) : ((respondPositive s).2).rxLen = s.rxLen := by simp [respondPositive]
@[simp] theorem respondPositive_reg (s : State) : ((respondPositive s).2).reg = s.reg := by simp [respondPositive]
@[simp] theorem respondPositive_regRemaining (s : State) : ((respondPositive s).2).regRemaining = s.regRemaining := by simp [respondPositive]
@[simp] theorem respondPositive_regChains (s : State) : ((respondPositive s).2).regChains = s.regChains := by simp [respondPositive]
@[simp] theorem respondPositive_dispState (s : State) : ((respondPositive s).2).dispState = s.dispState := by simp [respondPositive]
@[simp] theorem respondPositive_dispSid (s : State) : ((respondPositive s).2).dispSid = s.dispSid := by simp [respondPositive]
@[simp] theorem respondPositive_fault (s : State) : ((respondPositive s).2).fault = s.fault := by simp [respondPositive]
@[simp] theorem respondPositive_refused (s : State) : ((respondPositive s).2).refused = s.refused := by simp [respondPositive]
@[simp] theorem respondPositive_input (s : State) : ((respondPositive s).2).input = s.input := by simp [respondPositive]

/-! ### respondNegative -/

@[simp] theorem respondNegative_cfg (c : Byte) (s : State) : ((respondNegative c s).2).cfg = s.cfg := by simp [respondNegative]
@[simp] theorem respondNegative_live (c : Byte) (s : State) : ((respondNegative c s).2).live = s.live := by simp [respondNegative]
@[simp] theorem respondNegative_sid (c : Byte) (s : State) : ((respondNegative c s).2).sid = s.sid := by simp [respondNegative]
@[simp] theorem respondNegative_ssid (c : Byte) (s : State) : ((respondNegative c s).2).ssid = s.ssid := by simp [respondNegative]
@[simp] theorem respondNegative_active (c : Byte) (s : State) : ((respondNegative c s).2).active = s.active := by simp [respondNegative]
@[simp] theorem respondNegative_busy (c : Byte) (s : State) : ((respondNegative c s).2).busy = s.busy := by simp [respondNegative]
@[simp] theorem respondNegative_tick (c : Byte) (s : State) : ((respondNegative c s).2).tick = s.tick := by simp [respondNegative]
@[simp] theorem respondNegative_lastActivity (c : Byte) (s : State) : ((respondNegative c s).2).lastActivity = s.lastActivity := by simp [respondNegative]
@[simp] theorem respondNegative_ncsActive (c : Byte) (s : State) : ((respondNegative c s).2).ncsActive = s.ncsActive := by simp [respondNegative]
@[simp] theorem respondNegative_ncsMark (c : Byte) (s : State) : ((respondNegative c s).2).ncsMark = s.ncsMark := by simp [respondNegative]
@[simp] theorem respondNegative_reasmState (c : Byte) (s : State) : ((respondNegative c s).2).reasmState = s.reasmState := by simp [respondNegative]
@[simp] theorem respondNegative_reasmTotal (c : Byte) (s : State) : ((respondNegative c s).2).reasmTotal = s.reasmTotal := by simp [respondNegative]
@[simp] theorem respondNegative_reasmRecv (c : Byte) (s : State) : ((respondNegative c s).2).reasmRecv = s.reasmRecv := by simp [respondNegative]
@[simp] theorem respondNegative_reasmExpSn (c : Byte) (s : State) : ((respondNegative c s).2).reasmExpSn = s.reasmExpSn := by simp [respondNegative]
@[simp] theorem respondNegative_reasmBuf (c : Byte) (s : State) : ((respondNegative c s).2).reasmBuf = s.reasmBuf := by simp [respondNegative]
@[simp] theorem respondNegative_rxBuf (c : Byte) (s : State) : ((respondNegative c s).2).rxBuf = s.rxBuf := by simp [respondNegative]
@[simp] theorem respondNegative_rxLen (c : Byte) (s : State) : ((respondNegative c s).2).rxLen = s.rxLen := by simp [respondNegative]
@[simp] theorem respondNegative_reg (c : Byte) (s : State) : ((respondNegative c s).2).reg = s.reg := by simp [respondNegative]
@[simp] theorem respondNegative_regRemaining (c : Byte) (s : State) : ((respondNegative c s).2).regRemaining = s.regRemaining := by simp [respondNegative]
@[simp] theorem respondNegative_regChains (c : Byte) (s : State) : ((respondNegative c s).2).regChains = s.regChains := by simp [respondNegative]
@[simp] theorem respondNegative_dispState (c : Byte) (s : State) : ((respondNegative c s).2).dispState = s.dispState := by simp [respondNegative]
@[simp] theorem respondNegative_dispSid (c : Byte) (s : State) : ((respondNegative c s).2).dispSid = s.dispSid := by simp [respondNegative]
@[simp] theorem respondNegative_fault (c : Byte) (s : State) : ((respondNegative c s).2).fault = s.fault := by simp [respondNegative]
@[simp] theorem respondNegative_refused (c : Byte) (s : State) : ((respondNegative c s).2).refused = s.refused := by simp [respondNegative]
@[simp] theorem respondNegative_input (c : Byte) (s : State) : ((respondNegative c s).2).input = s.input := by simp [respondNegative]

/-! ### translate -/

@[simp] theorem translate_cfg (c : Byte) (s : State) : (translate c s).cfg = s.cfg := by unfold translate; split <;> [skip; split] <;> simp
@[simp] theorem translate_live (c : Byte) (s : State) : (translate c s).live = s.live := by unfold translate; split <;> [skip; split] <;> simp
@[simp] theorem translate_sid (c : Byte) (s : State) : (translate c s).sid = s.sid := by unfold translate; split <;> [skip; split] <;> simp
@[simp] theorem translate_ssid (c : Byte) (s : State) : (translate c s).ssid = s.ssid := by unfold translate; split <;> [skip; split] <;> simp
@[simp] theorem translate_active (c : Byte) (s : State) : (translate c s).active = s.active := by unfold translate; split <;> [skip; split] <;> simp
@[simp] theorem translate_busy (c : Byte) (s : State) : (translate c s).busy = s.busy := by unfold translate; split <;> [skip; split] <;> simp
@[simp] theorem translate_tick (c : Byte) (s : State) : (translate c s).tick = s.tick := by unfold translate; split <;> [skip; split] <;> simp
@[simp] theorem translate_lastActivity (c : Byte) (s : State) : (translate c s).lastActivity = s.lastActivity := by unfold translate; split <;> [skip; split] <;> simp
@[simp] theorem translate_ncsActive (c : Byte) (s : State) : (translate c s).ncsActive = s.ncsActive := by unfold translate; split <;> [skip; split] <;> simp
@[simp] theorem translate_ncsMark (c : Byte) (s : State) : (translate c s).ncsMark = s.ncsMark := by unfold translate; split <;> [skip; split] <;> simp
@[simp] theorem translate_reasmState (c : Byte) (s : State) : (translate c s).reasmState = s.reasmState := by unfold translate; split <;> [skip; split] <;> simp
@[simp] theorem translate_reasmTotal (c : Byte) (s : State) : (translate c s).reasmTotal = s.reasmTotal := by unfold translate; split <;> [skip; split] <;> simp
@[simp] theorem translate_reasmRecv (c : Byte) (s : State) : (translate c s).reasmRecv = s.reasmRecv := by unfold translate; split <;> [skip; split] <;> simp
@[simp] theorem translate_reasmExpSn (c : Byte) (s : State) : (translate c s).reasmExpSn = s.reasmExpSn := by unfold translate; split <;> [skip; split] <;> simp
@[simp] theorem translate_reasmBuf (c : Byte) (s : State) : (translate c s).reasmBuf = s.reasmBuf := by unfold translate; split <;> [skip; split] <;> simp
@[simp] theorem translate_rxBuf (c : Byte) (s : State) : (translate c s).rxBuf = s.rxBuf := by unfold translate; split <;> [skip; split] <;> simp
@[simp] theorem translate_rxLen (c : Byte) (s : State) : (translate c s).rxLen = s.rxLen := by unfold translate; split <;> [skip; split] <;> simp
@[simp] theorem translate_reg (c : Byte) (s : State) : (translate c s).reg = s.reg := by unfold translate; split <;> [skip; split] <;> simp
@[simp] theorem translate_regRemaining (c : Byte) (s : State) : (translate c s).regRemaining = s.regRemaining := by unfold translate; split <;> [skip; split] <;> simp
@[simp] theorem translate_regChains (c : Byte) (s : State) : (translate c s).regChains = s.regChains := by unfold translate; split <;> [skip; split] <;> simp
@[simp] theorem translate_dispState (c : Byte) (s : State) : (translate c s).dispState = s.dispState := by unfold translate; split <;> [skip; split] <;> simp
@[simp] theorem translate_dispSid (c : Byte) (s : State) : (translate c s).dispSid = s.dispSid := by unfold translate; split <;> [skip; split] <;> simp
@[simp] theorem translate_fault (c : Byte) (s : State) : (translate c s).fault = s.fault := by unfold translate; split <;> [skip; split] <;> simp
@[simp] theorem translate_refused (c : Byte) (s : State) : (translate c s).refused = s.refused := by unfold translate; split <;> [skip; split] <;> simp
@[simp] theorem translate_input (c : Byte) (s : State) : (translate c s).input = s.input := by unfold translate; split <;> [skip; split] <;> simp

/-! ### abortRunning -/

@[simp] theorem abortRunning_cfg (s : State) : (abortRunning s).cfg = s.cfg := by unfold abortRunning; split <;> simp
@[simp] theorem abortRunning_live (s : State) : (abortRunning s).live = s.live := by unfold abortRunning; split <;> simp
@[simp] theorem abortRunning_sid (s : State) : (abortRunning s).sid = s.sid := by unfold abortRunning; split <;> simp
@[simp] theorem abortRunning_ssid (s : State) : (abortRunning s).ssid = s.ssid := by unfold abortRunning; split <;> simp
@[simp] theorem abortRunning_active (s : State) : (abortRunning s).active = s.active := by unfold abortRunning; split <;> simp
@[simp] theorem abortRunning_busy (s : State) : (abortRunning s).busy = s.busy := by unfold abortRunning; split <;> simp
@[simp] theorem abortRunning_tick (s : State) : (abortRunning s).tick = s.tick := by unfold abortRunning; split <;> simp
@[simp] theorem abortRunning_lastActivity (s : State) : (abortRunning s).lastActivity = s.lastActivity := by unfold abortRunning; split <;> simp
@[simp] theorem abortRunning_ncsMark (s : State) : (abortRunning s).ncsMark = s.ncsMark := by unfold abortRunning; split <;> simp
@[simp] theorem abortRunning_rxBuf (s : State) : (abortRunning s).rxBuf = s.rxBuf := by unfold abortRunning; split <;> simp
@[simp] theorem abortRunning_rxLen (s : State) : (abortRunning s).rxLen = s.rxLen := by unfold abortRunning; split <;> simp
@[simp] theorem abortRunning_reg (s : State) : (abortRunning s).reg = s.reg := by unfold abortRunning; split <;> simp
@[simp] theorem abortRunning_regRemaining (s : State) : (abortRunning s).regRemaining = s.regRemaining := by unfold abortRunning; split <;> simp
@[simp] theorem abortRunning_regChains (s : State) : (abortRunning s).regChains = s.regChains := by unfold abortRunning; split <;> simp
@[simp] theorem abortRunning_dispState (s : State) : (abortRunning s).dispState = s.dispState := by unfold abortRunning; split <;> simp
@[simp] theorem abortRunning_dispSid (s : State) : (abortRunning s).dispSid = s.dispSid := by unfold abortRunning; split <;> simp
@[simp] theorem abortRunning_fault (s : State) : (abortRunning s).fault = s.fault := by unfold abortRunning; split <;> simp
@[simp] theorem abortRunning_refused (s : State) : (abortRunning s).refused = s.refused := by unfold abortRunning; split <;> simp
@[simp] theorem abortRunning_input (s : State) : (abortRunning s).input = s.input := by unfold abortRunning; split <;> simp

/-! ### timeouts -/

@[simp] theorem timeouts_cfg (s : State) : (timeouts s).cfg = s.cfg := by unfold timeouts; split <;> split <;> simp
@[simp] theorem timeouts_live (s : State) : (timeouts s).live = s.live := by unfold timeouts; split <;> split <;> simp
@[simp] theorem timeouts_active (s : State) : (timeouts s).active = s.active := by unfold timeouts; split <;> split <;> simp
@[simp] theorem timeouts_busy (s : State) : (timeouts s).busy = s.busy := by unfold timeouts; split <;> split <;> simp
@[simp] theorem timeouts_tick (s : State) : (timeouts s).tick = s.tick := by unfold timeouts; split <;> split <;> simp
@[simp] theorem timeouts_lastActivity (s : State) : (timeouts s).lastActivity = s.lastActivity := by unfold timeouts; split <;> split <;> simp
@[simp] theorem timeouts_ncsMark (s : State) : (timeouts s).ncsMark = s.ncsMark := by unfold timeouts; split <;> split <;> simp
@[simp] theorem timeouts_rxBuf (s : State) : (timeouts s).rxBuf = s.rxBuf := by unfold timeouts; split <;> split <;> simp
@[simp] theorem timeouts_rxLen (s : State) : (timeouts s).rxLen = s.rxLen := by unfold timeouts; split <;> split <;> simp
@[simp] theorem timeouts_reg (s : State) : (timeouts s).reg = s.reg := by unfold timeouts; split <;> split <;> simp
@[simp] theorem timeouts_regRemaining (s : State) : (timeouts s).regRemaining = s.regRemaining := by unfold timeouts; split <;> split <;> simp
@[simp] theorem timeouts_regChains (s : State) : (timeouts s).regChains = s.regChains := by unfold timeouts; split <;> split <;> simp
@[simp] theorem timeouts_dispState (s : State) : (timeouts s).dispState = s.dispState := by unfold timeouts; split <;> split <;> simp
@[simp] theorem timeouts_dispSid (s : State) : (timeouts s).dispSid = s.dispSid := by unfold timeouts; split <;> split <;> simp
@[simp] theorem timeouts_fault (s : State) : (timeouts s).fault = s.fault := by unfold timeouts; split <;> split <;> simp
@[simp] theorem timeouts_refused (s : State) : (timeouts s).refused = s.refused := by unfold timeouts; split <;> split <;> simp
@[simp] theorem timeouts_trace (s : State) : (timeouts s).trace = s.trace := by unfold timeouts; split <;> split <;> simp
@[simp] theorem timeouts_input (s : State) : (timeouts s).input = s.input := by unfold timeouts; split <;> split <;> simp
@[simp] theorem timeouts_txAnswers (s : State) : (timeouts s).txAnswers = s.txAnswers := by unfold timeouts; split <;> split <;> simp
@[simp] theorem timeouts_draws (s : State) : (timeouts s).draws = s.draws := by unfold timeouts; split <;> split <;> simp

/-! ### initialise -/

@[simp] theorem initialise_cfg (s : State) : (initialise s).cfg = s.cfg := rfl
@[simp] theorem initialise_live (s : State) : (initialise s).live = true := rfl
@[simp] theorem initialise_sid (s : State) : (initialise s).sid = s.cfg.defaultSid := rfl
@[simp] theorem initialise_ssid (s : State) : (initialise s).ssid = s.cfg.defaultSsid := rfl
@[simp] theorem initialise_active (s : State) : (initialise s).active = .none := rfl
@[simp] theorem initialise_busy (s : State) : (initialise s).busy = false := rfl
@[simp] theorem initialise_tick (s : State) : (initialise s).tick = 0 := rfl
@[simp] theorem initialise_lastActivity (s : State) : (initialise s).lastActivity = 0 := rfl
@[simp] theorem initialise_ncsActive (s : State) : (initialise s).ncsActive = false := rfl
@[simp] theorem initialise_ncsMark (s : State) : (initialise s).ncsMark = 0 := rfl
@[simp] theorem initialise_reasmState (s : State) : (initialise s).reasmState = .idle := rfl
@[simp] theorem initialise_reasmTotal (s : State) : (initialise s).reasmTotal = 0 := rfl
@[simp] theorem initialise_reasmRecv (s : State) : (initialise s).reasmRecv = 0 := rfl
@[simp] theorem initialise_reasmExpSn (s : State) : (initialise s).reasmExpSn = 0 := rfl
@[simp] theorem initialise_reasmBuf (s : State) : (initialise s).reasmBuf = [] := rfl
@[simp] theorem initialise_rxBuf (s : State) : (initialise s).rxBuf = Bytes7.zero := rfl
@[simp] theorem initialise_rxLen (s : State) : (initialise s).rxLen = 0 := rfl
@[simp] theorem initialise_reg (s : State) : (initialise s).reg = [] := rfl
@[simp] theorem initialise_regRemaining (s : State) : (initialise s).regRemaining = s.cfg.maxServices := rfl
@[simp] theorem initialise_regChains (s : State) : (initialise s).regChains = List.replicate s.cfg.bucketCount [] := rfl
@[simp] theorem initialise_dispState (s : State) : (initialise s).dispState = .idle := rfl
@[simp] theorem initialise_dispSid (s : State) : (initialise s).dispSid = 0 := rfl
@[simp] theorem initialise_fault (s : State) : (initialise s).fault = s.fault := rfl
@[simp] theorem initialise_refused (s : State) : (initialise s).refused = s.refused := rfl
@[simp] theorem initialise_trace (s : State) : (initialise s).trace = s.trace := rfl
@[simp] theorem initialise_input (s : State) : (initialise s).input = s.input := rfl
@[simp] theorem initialise_txAnswers (s : State) : (initialise s).txAnswers = s.txAnswers := rfl
@[simp] theorem initialise_draws (s : State) : (initialise s).draws = s.draws := rfl

/-! ### tearDown -/

@[simp] theorem tearDown_cfg (s : State) : (tearDown s).cfg = s.cfg := rfl
@[simp] theorem tearDown_live (s : State) : (tearDown s).live = false := rfl
@[simp] theorem tearDown_reasmBuf (s : State) : (tearDown s).reasmBuf = freeBuffer s.draws s.cfg.reasmCapacity := rfl
@[simp] theorem tearDown_reg (s : State) : (tearDown s).reg = [] := rfl
@[simp] theorem tearDown_regChains (s : State) : (tearDown s).regChains = [] := rfl
@[simp] theorem tearDown_dispState (s : State) : (tearDown s).dispState = .idle := rfl
@[simp] theorem tearDown_fault (s : State) : (tearDown s).fault = s.fault := rfl
@[simp] theorem tearDown_refused (s : State) : (tearDown s).refused = s.refused := rfl
@[simp] theorem tearDown_trace (s : State) : (tearDown s).trace = s.trace := rfl
@[simp] theorem tearDown_input (s : State) : (tearDown s).input = s.input := rfl
@[simp] theorem tearDown_txAnswers (s : State) : (tearDown s).txAnswers = s.txAnswers := rfl
@[simp] theorem tearDown_draws (s : State) : (tearDown s).draws = s.draws + 1 := rfl

end Sys2Proof.Machine
end

