-- ==== Sys2Proof/Laws/Ops.lean ====
section
/-! SUPPORT. What each shared operation can do, said once: the transmit port and the Response Builder, completion and admission, the registry
primitives, the intake branches and the phases of a dispatch. -/

namespace Sys2Proof.Machine

/-! ### Transmit port and Response Builder -/

/-- R285: no capability and no event, or one recorded attempt whose status is that of its answer. -/
theorem transmit_cases (f : Frame) (s : State) :
    (s.cfg.txPresent = false ∧ transmit f s = (.transmitError, s)) ∨
    (s.cfg.txPresent = true ∧ transmit f s = ((nextAnswer s).status, emit (.tx f (nextAnswer s)) (takeAnswer s))) := by
  unfold transmit
  cases s.cfg.txPresent <;> simp

theorem packSingle_one (a : Byte) : packSingle 1#8 (payload7 [a]) = .ok ⟨0x01, a, 0, 0, 0, 0, 0, 0⟩ := by
  simp [packSingle, packable, payload7, keepBytes, Frame.single, Frame.ofPci, loNibble]

theorem packSingle_two (a b : Byte) : packSingle 2#8 (payload7 [a, b]) = .ok ⟨0x02, a, b, 0, 0, 0, 0, 0⟩ := by
  simp [packSingle, packable, payload7, keepBytes, Frame.single, Frame.ofPci, loNibble]

theorem packSingle_three (a b c : Byte) : packSingle 3#8 (payload7 [a, b, c]) = .ok ⟨0x03, a, b, c, 0, 0, 0, 0⟩ := by
  simp [packSingle, packable, payload7, keepBytes, Frame.single, Frame.ofPci, loNibble]

/-- A payload that packs is transmitted: the `INTERNAL_ERROR` of R283 needs one that does not. -/
theorem respond_packed {pl : List Byte} {f : Frame} (h : packSingle (BitVec.ofNat 8 pl.length) (payload7 pl) = .ok f) (s : State) :
    respond pl s = transmit f s := by
  simp only [respond, h]

/-- R280: a positive response is one transmit attempt of this frame; `INTERNAL_ERROR` is dead (R283). -/
theorem respondPositive_eq (s : State) :
    respondPositive s =
      transmit (if s.ssid = 0 then ⟨0x01, s.sid + 0x40, 0, 0, 0, 0, 0, 0⟩ else ⟨0x02, s.sid + 0x40, s.ssid, 0, 0, 0, 0, 0⟩) s := by
  by_cases h : s.ssid = 0
  · rw [if_pos h, respondPositive, positivePayload, if_neg (not_not.2 h)]
    exact respond_packed (pl := [_]) (packSingle_one _) s
  · rw [if_neg h, respondPositive, positivePayload, if_pos h]
    exact respond_packed (pl := [_, _]) (packSingle_two _ _) s

/-- R281: a negative response is one transmit attempt of this frame; `INTERNAL_ERROR` is dead (R283). -/
theorem respondNegative_eq (c : Byte) (s : State) :
    respondNegative c s = transmit ⟨0x03, 0x7F, s.sid, c, 0, 0, 0, 0⟩ s := by
  exact respond_packed (pl := [_, _, _]) (packSingle_three _ _ _) s

/-! ### Completion and admission -/

theorem complete_next {st : Status} {n : Nat} {outs : List Byte} {s t : State} (h : complete st n outs s = .next t) :
    t = emit (.result (st.code :: if st = .ok then outs else List.replicate n 0)) s := by
  simpa [complete] using h.symm

theorem completeWith_eq (r : Status × State) : completeWith r = .next (emit (.result [r.1.code]) r.2) := by
  unfold completeWith complete
  split <;> rfl

theorem completeOk_ok (s : State) : completeOk (.ok s) = .next (emit (.result [0x00]) s) := rfl

theorem completeWith_next {r : Status × State} {t : State} (h : completeWith r = .next t) :
    t = emit (.result [r.1.code]) r.2 := by
  have := complete_next h
  rw [this]
  split <;> rfl

theorem completeOk_next {r : Except Fault State} {t : State} (h : completeOk r = .next t) :
    ∃ u, r = .ok u ∧ t = emit (.result [0x00]) u := by
  cases r with
  | error k => simp [completeOk] at h
  | ok u => exact ⟨u, rfl, complete_next h⟩

theorem whenLive_next {s t : State} {r : Result} (h : whenLive s r = .next t) : s.live = true ∧ r = .next t := by
  unfold whenLive at h
  cases hl : s.live <;> simp_all

theorem whenIdle_next {s t : State} {r : Result} (h : whenIdle s r = .next t) :
    s.live = true ∧ s.dispState = .idle ∧ r = .next t := by
  obtain ⟨hl, h⟩ := whenLive_next h
  by_cases hw : s.dispState = .idle <;> simp_all [waiting]

theorem whenLive_of_live {s : State} (h : s.live = true) (r : Result) : whenLive s r = r := by simp [whenLive, h]

theorem whenIdle_of_idle {s : State} (h : s.live = true) (hd : s.dispState = .idle) (r : Result) : whenIdle s r = r := by
  simp [whenIdle, whenLive, waiting, h, hd]

/-! ### Registry primitives -/

/-- R162: an update in place, no storage, or a new key with its capacity and chain. -/
theorem regInsert_cases (k : Byte) (v : ServiceEntry) (s : State) :
    ((regFind k s).isSome = true ∧ regInsert k v s = (.ok, { s with reg := putRow rowKey (k, v) s.reg })) ∨
    ((regFind k s).isSome = false ∧ s.regRemaining = 0 ∧ regInsert k v s = (.memoryError, s)) ∨
    ((regFind k s).isSome = false ∧ s.regRemaining ≠ 0 ∧
      regInsert k v s = (.ok, { s with
        reg := putRow rowKey (k, v) s.reg
        regChains := s.regChains.modify (bucketOf s.cfg.bucketCount k) (fun chain => k :: chain)
        regRemaining := s.regRemaining - 1 })) := by
  unfold regInsert
  cases hf : (regFind k s).isSome
  · by_cases hr : s.regRemaining = 0 <;> simp [hr]
  · simp

/-- R164: absent, or removed with its capacity returned. -/
theorem regRemove_cases (k : Byte) (s : State) :
    ((regFind k s).isSome = false ∧ regRemove k s = (.notFoundError, s)) ∨
    ((regFind k s).isSome = true ∧
      regRemove k s = (.ok, { s with
        reg := dropRow rowKey k.toNat s.reg
        regChains := s.regChains.modify (bucketOf s.cfg.bucketCount k) (fun chain => chain.filter (fun x => decide (x ≠ k)))
        regRemaining := s.regRemaining + 1 })) := by
  unfold regRemove
  cases hf : regFind k s <;> simp

/-- R166: what is found is in the list and has the id. -/
theorem findSub_some {i : Byte} {l : List SubEntry} {x : SubEntry} (h : findSub i l = some x) : x ∈ l ∧ x.ssid = i := by
  induction l with
  | nil => simp [findSub] at h
  | cons y ys ih =>
    unfold findSub at h
    split at h
    · next e => cases h; exact ⟨List.mem_cons_self, e⟩
    · exact ⟨List.mem_cons_of_mem _ (ih h).1, (ih h).2⟩

/-! ### Intake -/

/-- R206: dropped, answered BusyRepeatRequest, or latched. -/
theorem intakeSingle_cases (f : Frame) (s : State) :
    ((∃ e, unpackSingle f = .error e) ∧ intakeSingle f s = s) ∨
    (s.busy = true ∧ intakeSingle f s = (respondNegative s.cfg.nrcBrr s).2) ∨
    (s.busy = false ∧ ∃ l p, unpackSingle f = .ok (l, p) ∧
      intakeSingle f s = { s with
        lastActivity := s.tick, rxBuf := p, rxLen := l.setWidth 3, sid := p.b0
        ssid := if 2 ≤ l.toNat then p.b1 else 0, active := .single }) := by
  unfold intakeSingle
  cases hu : unpackSingle f with
  | error e => exact .inl ⟨⟨e, rfl⟩, rfl⟩
  | ok r =>
    cases hb : s.busy
    · exact .inr (.inr ⟨rfl, r.1, r.2, rfl, by simp⟩)
    · exact .inr (.inl ⟨rfl, by simp⟩)

/-- R207 to R209: dropped; answered BusyRepeatRequest, ResponseTooLong, or started, each after the abort of a running reassembly. -/
theorem intakeFirst_cases (f : Frame) (s : State) :
    ((∃ e, unpackFirst f = .error e) ∧ intakeFirst f s = s) ∨
    (∃ t p, unpackFirst f = .ok (t, p) ∧
      ((s.busy = true ∧ intakeFirst f s = (respondNegative s.cfg.nrcBrr (abortRunning s)).2) ∨
       (s.busy = false ∧ intakeFirst f s = startReassembly t p (abortRunning s)))) := by
  unfold intakeFirst
  cases hu : unpackFirst f with
  | error e => exact .inl ⟨⟨e, rfl⟩, rfl⟩
  | ok r =>
    refine .inr ⟨r.1, r.2, rfl, ?_⟩
    cases h : s.busy <;> simp [h]

/-- R209: the overflow and the start. -/
theorem startReassembly_cases (t : Len12) (p : Bytes6) (s : State) :
    (s.cfg.reasmCapacity < t.toNat ∧
      startReassembly t p s = abort (respondNegative s.cfg.nrcRtl { s with lastActivity := s.tick }).2) ∨
    (t.toNat ≤ s.cfg.reasmCapacity ∧
      startReassembly t p s = startNcs (transmit ⟨0x30, 0, 0, 0, 0, 0, 0, 0⟩ (latchFirst t p { s with lastActivity := s.tick })).2) := by
  unfold startReassembly
  by_cases h : s.cfg.reasmCapacity < t.toNat
  · exact .inl ⟨h, by simp [h]⟩
  · exact .inr ⟨Nat.le_of_not_lt h, by simp only [h, if_false]; rfl⟩

/-- R210 to R213: ignored, out of sequence, or accepted; the model's own fault otherwise. -/
theorem intakeConsecutive_cases {f : Frame} {s u : State} (h : intakeConsecutive f s = .ok u) :
    u = s ∨
    (s.reasmState = .receiving ∧
      ((f.kindNibble ≠ s.reasmExpSn ∧ u = (respondNegative s.cfg.nrcRse (abort { s with lastActivity := s.tick })).2) ∨
       (f.kindNibble = s.reasmExpSn ∧ 0 < copyCount s ∧ s.reasmRecv.toNat + copyCount s ≤ s.cfg.reasmCapacity ∧
          u = acceptConsecutive f.tail7 (copyCount s) { s with lastActivity := s.tick }))) := by
  unfold intakeConsecutive at h
  by_cases hr : s.reasmState = .receiving
  · rw [if_neg (not_not.2 hr)] at h
    have hk : ¬ 15 < f.kindNibble.toNat := by omega
    by_cases ht : f.typeNibble = 2
    · simp only [unpackConsecutive, ht, ne_eq, not_true_eq_false, if_false, hk] at h
      by_cases hs : f.kindNibble = s.reasmExpSn
      · simp only [hs, not_true_eq_false, if_false] at h
        split at h
        · simp at h
        · next hn =>
          simp only [not_or, not_lt] at hn
          exact .inr ⟨hr, .inr ⟨hs, Nat.pos_of_ne_zero hn.1, hn.2, (Except.ok.inj h).symm⟩⟩
      · simp only [hs, not_false_eq_true, if_true] at h
        exact .inr ⟨hr, .inl ⟨hs, (Except.ok.inj h).symm⟩⟩
    · simp only [unpackConsecutive, ne_eq, ht, not_false_eq_true, if_true] at h
      exact .inl (by simpa using h.symm)
  · simp only [ne_eq, hr, not_false_eq_true, if_true] at h
    exact .inl (by simpa using h.symm)

/-- R205: what a received frame can do. -/
theorem receive_cases {f : Frame} {s u : State} (h : receive f s = .ok u) :
    u = intakeSingle f s ∨ u = intakeFirst f s ∨ intakeConsecutive f s = .ok u ∨ u = s := by
  unfold receive at h
  split at h
  · exact .inl (by simpa using h.symm)
  · exact .inr (.inl (by simpa using h.symm))
  · exact .inr (.inr (.inl h))
  · exact .inr (.inr (.inr (by simpa using h.symm)))

/-! ### Dispatch -/

/-- R251: the end of a dispatch clears the buffers; the order of the two writes does not matter. -/
theorem finish_eq (s : State) : finish s = clearBuffers { s with dispState := .idle } := rfl

theorem finish_of_idle {s : State} (h : s.dispState = .idle) : finish s = clearBuffers s := by
  rw [finish_eq, ← h]

/-- R241: the elapsed ticks, as a number. -/
theorem elapsed_toNat (s : State) (m : Word) : (elapsed s m).toNat = (s.tick.toNat + 2 ^ 32 - m.toNat) % 2 ^ 32 := by
  have hm := m.isLt
  have ht := s.tick.isLt
  rw [elapsed, BitVec.toNat_sub]
  congr 1
  omega

/-- R243: without a timeout nothing is written. -/
theorem timeouts_of_none {s : State} (h : sessionExpired s = false) (h' : ncsExpired s = false) : timeouts s = s := by
  simp [timeouts, h, h']

/-- R248, R251: not supported, called, or finished. -/
theorem subfunctionPhase_cases {s u : State} (h : subfunctionPhase s = .ok u) :
    ∃ e, regFind s.dispSid s = some e ∧
      ((findSub s.ssid e.subs = none ∧ u = finish (respondNegative s.cfg.nrcSfns s).2) ∨
       (∃ x, findSub s.ssid e.subs = some x ∧
          ((x.hasHandler = true ∧ u = callHandler .subfunction x.hid x.param s) ∨ (x.hasHandler = false ∧ u = finish s)))) := by
  unfold subfunctionPhase at h
  cases hf : regFind s.dispSid s with
  | none => simp [hf] at h
  | some e =>
    refine ⟨e, rfl, ?_⟩
    simp only [hf] at h
    cases hs : findSub s.ssid e.subs with
    | none =>
      simp only [hs] at h
      exact .inl ⟨rfl, by simpa using h.symm⟩
    | some x =>
      simp only [hs] at h
      refine .inr ⟨x, rfl, ?_⟩
      cases hx : x.hasHandler <;> simp_all

/-- R245, R246: not registered, the service handler called, or on to the sub-function phase. -/
theorem lookupRequest_cases {s u : State} (h : lookupRequest s = .ok u) :
    (regFind s.sid s = none ∧ u = clearBuffers (respondNegative s.cfg.nrcSns s).2) ∨
    (∃ e, regFind s.sid s = some e ∧
      ((e.hasHandler = true ∧ u = callHandler .service e.hid e.param (latchDispatched s)) ∨
       (e.hasHandler = false ∧ subfunctionPhase (latchDispatched s) = .ok u))) := by
  unfold lookupRequest at h
  cases hf : regFind s.sid s with
  | none =>
    simp only [hf] at h
    exact .inl ⟨rfl, by simpa using h.symm⟩
  | some e =>
    simp only [hf, servicePhase] at h
    refine .inr ⟨e, rfl, ?_⟩
    cases he : e.hasHandler <;> simp_all

/-- R243, R244: ended by a timeout, nothing pending, or a request taken. -/
theorem dispatchRequest_cases {s u : State} (h : dispatchRequest s = .ok u) :
    (sessionExpired s = true ∧ u = timeouts s) ∨
    (sessionExpired s = false ∧ s.active = .none ∧ u = timeouts s) ∨
    (sessionExpired s = false ∧ s.active ≠ .none ∧ lookupRequest (takeRequest (timeouts s)) = .ok u) := by
  unfold dispatchRequest at h
  rw [timeouts_active] at h
  cases he : sessionExpired s
  · by_cases hn : s.active = .none
    · exact .inr (.inl ⟨rfl, hn, by simpa [he, hn] using h.symm⟩)
    · exact .inr (.inr ⟨rfl, hn, by simpa [he, hn] using h⟩)
  · exact .inl ⟨rfl, by simpa [he] using h.symm⟩

end Sys2Proof.Machine
end

