-- ==== Sys2Proof/Laws/Exec.lean ====
section
/-! SUPPORT. What one executed command can do, said once: `Ran i s p u` lists every way in which `exec i s` completes, with the result packet `p`
and the state `u` before that packet is appended to the trace. -/

namespace Sys2Proof.Machine

theorem respondNegative_frame (c : Byte) (s : State) : respondNegative c s = transmit (negativeFrame s.sid c) s := respondNegative_eq c s

theorem respondPositive_frame (s : State) : respondPositive s = transmit (positiveFrame s.sid s.ssid) s := respondPositive_eq s

/-- The ways in which a command completes: instruction, state before, result packet, state after. -/
inductive Ran : Instr → State → List Byte → State → Prop where
  /-- A result and no other effect; the outputs of a status that is not OK are 0 (R93). -/
  | report {i s st outs} (h : st ≠ 0x00 → ∀ b ∈ outs, b = 0) : Ran i s (st :: outs) s
  | respondNegative {c s} (h : s.live = true) : Ran (.respondNegative c) s [(respondNegative c s).1.code] (respondNegative c s).2
  | respondPositive {s} (h : s.live = true) : Ran .respondPositive s [(respondPositive s).1.code] (respondPositive s).2
  | single {i f s} (h : s.live = true) (hi : takesIn i f) (ht : f.typeNibble = 0) : Ran i s [0x00] (intakeSingle f s)
  | first {i f s} (h : s.live = true) (hi : takesIn i f) (ht : f.typeNibble = 1) : Ran i s [0x00] (intakeFirst f s)
  | consecutive {i f s u} (h : s.live = true) (hi : takesIn i f) (ht : f.typeNibble = 2) (hu : intakeConsecutive f s = .ok u) :
      Ran i s [0x00] u
  | tick {n s} (h : s.live = true) : Ran (.tick n) s [0x00] { s with tick := s.tick + 1 }
  | dispatch {s u} (h : s.live = true) (hd : s.dispState = .idle) (hu : dispatchRequest s = .ok u) : Ran .dispatch s [0x00] u
  | serviceReturned {c s u} (h : s.live = true) (hd : s.dispState = .waitService) (hu : serviceReturned c s = .ok u) :
      Ran (.handlerReturn c) s [0x00] u
  | subfunctionReturned {c s} (h : s.live = true) (hd : s.dispState = .waitSub) :
      Ran (.handlerReturn c) s [0x00] (subfunctionReturned c s)
  | registerService {k a b c s} (h : s.live = true) (hd : s.dispState = .idle) :
      Ran (.registerService k a b c) s [(regInsert k ⟨hasHandler a, b, c, []⟩ s).1.code] (regInsert k ⟨hasHandler a, b, c, []⟩ s).2
  | registerSubfunction {k d a b c s} (h : s.live = true) (hd : s.dispState = .idle) :
      Ran (.registerSubfunction k d a b c) s [(appendSub k ⟨d, hasHandler a, b, c⟩ s).1.code] (appendSub k ⟨d, hasHandler a, b, c⟩ s).2
  | removeService {k s} (h : s.live = true) (hd : s.dispState = .idle) :
      Ran (.removeService k) s [(regRemove k s).1.code] (regRemove k s).2
  | delete {s} (h : s.live = true) (hd : s.dispState = .idle) : Ran .delete s [0x00] (tearDown s)
  | init {s} (h : s.live = false) (hb : s.cfg.bucketCount ≠ 0) : Ran .init s [0x00] (initialise s)

theorem complete_ran {i : Instr} {st : Status} {n : Nat} {outs : List Byte} {s t : State} (h : complete st n outs s = .next t) :
    ∃ p u, Ran i s p u ∧ t = emit (.result p) u := by
  refine ⟨_, s, .report fun hst => ?_, complete_next h⟩
  split
  · next ok => subst ok; exact absurd rfl hst
  · simp [List.mem_replicate]

theorem completeCodec_ran {i : Instr} {n : Nat} {r : Except Status (List Byte)} {s t : State} (h : completeCodec n r s = .next t) :
    ∃ p u, Ran i s p u ∧ t = emit (.result p) u := by
  cases r <;> exact complete_ran h

theorem receive_ran {i : Instr} {f : Frame} {s u : State} (hl : s.live = true) (hi : takesIn i f) (h : receive f s = .ok u) :
    Ran i s [0x00] u := by
  unfold receive at h
  split at h
  · next ht => rw [← Except.ok.inj h]; exact .single hl hi (BitVec.eq_of_toNat_eq ht)
  · next ht => rw [← Except.ok.inj h]; exact .first hl hi (BitVec.eq_of_toNat_eq ht)
  · next ht => exact .consecutive hl hi (BitVec.eq_of_toNat_eq ht) h
  · rw [← Except.ok.inj h]; exact .report fun x => absurd rfl x

/-- Every completion is one of the listed ways. -/
theorem exec_ran {i : Instr} {s t : State} (h : exec i s = .next t) : ∃ p u, Ran i s p u ∧ t = emit (.result p) u := by
  cases i <;> simp only [exec] at h
  case packSf | unpackSf | packFf | unpackFf | packCf | unpackCf | unpackFc => exact completeCodec_ran h
  case packFc => exact complete_ran h
  case frameSf len p =>
    obtain ⟨hl, h⟩ := whenLive_next h
    obtain ⟨u, hu, e⟩ := completeOk_next h
    refine ⟨_, u, ?_, e⟩
    rw [← Except.ok.inj hu]
    exact .single hl (.inr (by simp [decodeFrame])) (typeNibble_single ..)
  case frameFf t p =>
    obtain ⟨hl, h⟩ := whenLive_next h
    obtain ⟨u, hu, e⟩ := completeOk_next h
    refine ⟨_, u, ?_, e⟩
    rw [← Except.ok.inj hu]
    exact .first hl (.inr (by simp [decodeFrame])) (typeNibble_first ..)
  case frameCf sn p =>
    obtain ⟨hl, h⟩ := whenLive_next h
    obtain ⟨u, hu, e⟩ := completeOk_next h
    exact ⟨_, u, .consecutive hl (.inr (by simp [decodeFrame])) (typeNibble_consecutive ..) hu, e⟩
  case frameFc | frameReserved | frameReservedHi => exact complete_ran (whenLive_next h).2
  case registerService =>
    obtain ⟨hl, hd, h⟩ := whenIdle_next h
    exact ⟨_, _, .registerService hl hd, completeWith_next h⟩
  case registerSubfunction =>
    obtain ⟨hl, hd, h⟩ := whenIdle_next h
    exact ⟨_, _, .registerSubfunction hl hd, completeWith_next h⟩
  case findService =>
    obtain ⟨_, h⟩ := whenLive_next h
    split at h <;> exact complete_ran h
  case removeService =>
    obtain ⟨hl, hd, h⟩ := whenIdle_next h
    exact ⟨_, _, .removeService hl hd, completeWith_next h⟩
  case init =>
    unfold execInit at h
    split at h
    · simp at h
    · next hl =>
      split at h
      · exact complete_ran h
      · next hb => exact ⟨_, _, .init (by simpa using hl) hb, complete_next h⟩
  case delete =>
    obtain ⟨hl, hd, h⟩ := whenIdle_next h
    exact ⟨_, _, .delete hl hd, complete_next h⟩
  case receiveFrame f =>
    obtain ⟨hl, h⟩ := whenLive_next h
    obtain ⟨u, hu, e⟩ := completeOk_next h
    exact ⟨_, u, receive_ran hl (.inl rfl) hu, e⟩
  case tick =>
    obtain ⟨hl, h⟩ := whenLive_next h
    exact ⟨_, _, .tick hl, complete_next h⟩
  case dispatch =>
    obtain ⟨hl, hd, h⟩ := whenIdle_next h
    obtain ⟨u, hu, e⟩ := completeOk_next h
    exact ⟨_, u, .dispatch hl hd hu, e⟩
  case handlerReturn c =>
    obtain ⟨hl, h⟩ := whenLive_next h
    split at h
    · simp at h
    · next hd =>
      obtain ⟨u, hu, e⟩ := completeOk_next h
      exact ⟨_, u, .serviceReturned hl hd hu, e⟩
    · next hd => exact ⟨_, _, .subfunctionReturned hl hd, complete_next h⟩
  case readState => exact complete_ran (whenLive_next h).2
  case readBuf =>
    obtain ⟨_, h⟩ := whenLive_next h
    split at h <;> exact complete_ran h
  case respondPositive =>
    obtain ⟨hl, h⟩ := whenLive_next h
    exact ⟨_, _, .respondPositive hl, completeWith_next h⟩
  case respondNegative =>
    obtain ⟨hl, h⟩ := whenLive_next h
    exact ⟨_, _, .respondNegative hl, completeWith_next h⟩
  case reservedOpcode => simp [execReservedOpcode] at h

end Sys2Proof.Machine
end

