-- ==== Sys2Proof/Laws/Inv.lean ====
section
/-! SUPPORT. The invariant of Safety.lean is kept by each named operation: by the transmit port, the intake branches, the registry primitives and
the phases of a dispatch. -/

namespace Sys2Proof.Machine

theorem inv_congr {s t : State} (h : s.Inv) (e1 : t.cfg = s.cfg) (e2 : t.live = s.live) (e3 : t.sid = s.sid)
    (e4 : t.busy = s.busy) (e5 : t.ncsActive = s.ncsActive) (e6 : t.reasmState = s.reasmState) (e7 : t.reasmTotal = s.reasmTotal)
    (e8 : t.reasmRecv = s.reasmRecv) (e9 : t.reasmExpSn = s.reasmExpSn) (e10 : t.reasmBuf = s.reasmBuf) (e11 : t.reg = s.reg)
    (e12 : t.regRemaining = s.regRemaining) (e13 : t.regChains = s.regChains) (e14 : t.dispState = s.dispState)
    (e15 : t.dispSid = s.dispSid) : t.Inv := by
  cases s; cases t
  simp only at e1 e2 e3 e4 e5 e6 e7 e8 e9 e10 e11 e12 e13 e14 e15
  subst e1 e2 e3 e4 e5 e6 e7 e8 e9 e10 e11 e12 e13 e14 e15
  exact h

theorem inv_emit {s : State} (h : s.Inv) (e : Event) : (emit e s).Inv := by apply inv_congr h <;> simp
theorem inv_takeInput {s : State} (h : s.Inv) : (takeInput s).Inv := by apply inv_congr h <;> simp
theorem inv_transmit {s : State} (h : s.Inv) (f : Frame) : (transmit f s).2.Inv := by apply inv_congr h <;> simp
theorem inv_respondNegative {s : State} (h : s.Inv) (c : Byte) : (respondNegative c s).2.Inv := by apply inv_congr h <;> simp
theorem inv_respondPositive {s : State} (h : s.Inv) : (respondPositive s).2.Inv := by apply inv_congr h <;> simp
theorem inv_translate {s : State} (h : s.Inv) (c : Byte) : (translate c s).Inv := by apply inv_congr h <;> simp

theorem registry_congr {s t : State} (h : registryInv s) (e1 : t.cfg = s.cfg) (e11 : t.reg = s.reg)
    (e12 : t.regRemaining = s.regRemaining) (e13 : t.regChains = s.regChains) : registryInv t := by
  cases s; cases t
  simp only at e1 e11 e12 e13
  subst e1 e11 e12 e13
  exact h
theorem regFind_congr {s t : State} (e : t.reg = s.reg) (k : Byte) : regFind k t = regFind k s := by simp [regFind, e]

theorem inv_abort {s : State} (h : s.Inv) : (abort s).Inv := by
  obtain ⟨hb, hr, hn, hl⟩ := h
  refine ⟨⟨rfl, rfl⟩, hr, hn, fun l => ?_⟩
  obtain ⟨h1, h2, h3⟩ := hl l
  exact ⟨by simp [reassemblyInv], registry_congr h2 rfl rfl rfl rfl, h3⟩
theorem inv_clear {s : State} (h : s.Inv) : (clearBuffers s).Inv := by
  apply inv_congr (inv_abort h) <;> rfl

/-- A state that differs in its dispatch fields, its ids and its receive buffer only. -/
theorem inv_disp {s t : State} (h : s.Inv) (e1 : t.cfg = s.cfg) (e2 : t.live = s.live)
    (e5 : t.ncsActive = s.ncsActive) (e6 : t.reasmState = s.reasmState) (e7 : t.reasmTotal = s.reasmTotal)
    (e8 : t.reasmRecv = s.reasmRecv) (e9 : t.reasmExpSn = s.reasmExpSn) (e10 : t.reasmBuf = s.reasmBuf) (e11 : t.reg = s.reg)
    (e12 : t.regRemaining = s.regRemaining) (e13 : t.regChains = s.regChains) (hl : t.live = true) (hd : dispatchInv t) : t.Inv := by
  obtain ⟨hb, hr, hn, hll⟩ := h
  cases s; cases t
  simp only at e1 e2 e5 e6 e7 e8 e9 e10 e11 e12 e13 hl
  subst e1 e2 e5 e6 e7 e8 e9 e10 e11 e12 e13 hl
  obtain ⟨h1, h2, h3⟩ := hll rfl
  exact ⟨hb, hr, by simp, fun _ => ⟨h1, h2, hd⟩⟩

theorem inv_intakeSingle {s : State} (h : s.Inv) (hl : s.live = true) (f : Frame) : (intakeSingle f s).Inv := by
  rcases intakeSingle_cases f s with ⟨_, e⟩ | ⟨_, e⟩ | ⟨hb, l, p, _, e⟩
  · rwa [e]
  · rw [e]; exact inv_respondNegative h _
  · rw [e]
    obtain ⟨h1, h2, h3⟩ := h.2.2.2 hl
    refine inv_disp h rfl rfl rfl rfl rfl rfl rfl rfl rfl rfl rfl hl ?_
    have := h3.1
    rw [hb] at this
    simp only [Bool.false_eq_true, false_iff, not_not] at this
    simp [dispatchInv, this, hb]

theorem inv_abortRunning {s : State} (h : s.Inv) : (abortRunning s).Inv := by
  unfold abortRunning; split
  · exact inv_abort (inv_respondNegative h _)
  · exact h

theorem inv_lastActivity {s : State} (h : s.Inv) : ({ s with lastActivity := s.tick } : State).Inv := by apply inv_congr h <;> rfl

theorem inv_intakeFirst {s : State} (h : s.Inv) (hl : s.live = true) (f : Frame) : (intakeFirst f s).Inv := by
  rcases intakeFirst_cases f s with ⟨_, e⟩ | ⟨t, p, hu, ⟨hb, e⟩ | ⟨hb, e⟩⟩
  · rwa [e]
  · rw [e]; exact inv_respondNegative (inv_abortRunning h) _
  · rw [e]
    have ha := inv_abortRunning h
    have hla : (abortRunning s).live = true := by unfold abortRunning; split <;> simp [hl]
    have hba : (abortRunning s).busy = false := by unfold abortRunning; split <;> simp [hb]
    generalize abortRunning s = a at *
    have ht : 8 ≤ t.toNat := by
      unfold unpackFirst at hu; split at hu <;> [skip; split at hu] <;> simp_all
    rcases startReassembly_cases t p a with ⟨_, e⟩ | ⟨hc, e⟩
    · rw [e]; exact inv_abort (inv_respondNegative (inv_lastActivity ha) _)
    · rw [e]
      obtain ⟨hb, hr, hn, hll⟩ := ha
      obtain ⟨h1, h2, h3⟩ := hll hla
      have hd := h3.1
      rw [hba] at hd
      simp only [Bool.false_eq_true, false_iff, not_not] at hd
      refine ⟨⟨?_, ?_⟩, ?_, ?_, fun _ => ⟨⟨?_, ?_⟩, ?_, ?_⟩⟩
      · simpa using wf_writeBytes _ hb.1 0
      · simpa using below_writeBytes _ hb.2 (by simp [Bytes6.toList]; omega)
      · simpa using hr
      · simp [hla]
      · simp
      · simp only [startNcs_reasmState, transmit_reasmState, latchFirst_reasmState, startNcs_reasmTotal, transmit_reasmTotal, latchFirst_reasmTotal, startNcs_reasmRecv, transmit_reasmRecv, latchFirst_reasmRecv, startNcs_reasmExpSn, transmit_reasmExpSn, latchFirst_reasmExpSn, startNcs_cfg, transmit_cfg, latchFirst_cfg]; exact ⟨ht, hc, by simp; omega, 0, by simp⟩
      · exact registry_congr h2 (by simp) (by simp) (by simp) (by simp)
      · simp [dispatchInv, hd, hba]

theorem inv_intakeConsecutive {s u : State} (h : s.Inv) (hl : s.live = true) {f : Frame} (hu : intakeConsecutive f s = .ok u) : u.Inv := by
  rcases intakeConsecutive_cases hu with e | ⟨hr, ⟨_, e⟩ | ⟨hs, h0, hc, e⟩⟩
  · rwa [e]
  · rw [e]; exact inv_respondNegative (inv_abort (inv_lastActivity h)) _
  · obtain ⟨hb, hrr, hn, hll⟩ := h
    obtain ⟨h1, h2, h3⟩ := hll hl
    have hp : (f.tail7.toList.take (copyCount s)).length ≤ copyCount s := by simp
    have b1 := wf_writeBytes (f.tail7.toList.take (copyCount s)) hb.1 s.reasmRecv.toNat
    have b2 : Memory.below s.cfg.reasmCapacity (Memory.writeBytes s.reasmBuf s.reasmRecv.toNat (f.tail7.toList.take (copyCount s))) = true := below_writeBytes (f.tail7.toList.take (copyCount s)) hb.2 (by omega)
    have h1' := h1.2
    simp only [hr] at h1'
    obtain ⟨t8, tc, rt, k, rk, sk⟩ := h1'
    have hcc : copyCount s ≤ 7 := by unfold copyCount; omega
    have htl := s.reasmTotal.isLt
    have hadd : (s.reasmRecv + BitVec.ofNat 12 (copyCount s)).toNat = s.reasmRecv.toNat + copyCount s := by
      have : s.reasmRecv.toNat + copyCount s < 4096 := by unfold copyCount; omega
      rw [BitVec.toNat_add, BitVec.toNat_ofNat, Nat.mod_eq_of_lt (by omega : copyCount s < 2^12), Nat.mod_eq_of_lt this]
    rw [e]; unfold acceptConsecutive
    have hh3 : dispatchInv s := h3
    by_cases hd : s.reasmRecv + BitVec.ofNat 12 (copyCount s) = s.reasmTotal
    · simp only [hd, if_true]
      exact ⟨⟨b1, b2⟩, hrr, hn, fun _ => ⟨⟨by simp, rfl, t8, tc⟩, registry_congr h2 rfl rfl rfl rfl, h3⟩⟩
    · simp only [hd, if_false]
      have hne : s.reasmRecv.toNat + copyCount s ≠ s.reasmTotal.toNat := by
        rw [← hadd]; exact fun e => hd (BitVec.eq_of_toNat_eq e)
      have h7 : copyCount s = 7 := by unfold copyCount at *; omega
      have hlt : s.reasmRecv.toNat + copyCount s < s.reasmTotal.toNat := by unfold copyCount at *; omega
      have key : reassemblyInv { s with lastActivity := s.tick, reasmBuf := Memory.writeBytes s.reasmBuf s.reasmRecv.toNat (f.tail7.toList.take (copyCount s)), reasmRecv := s.reasmRecv + BitVec.ofNat 12 (copyCount s), reasmExpSn := s.reasmExpSn + 1 } := by
        refine ⟨h1.1, ?_⟩
        simp only [hr]
        refine ⟨t8, tc, by rw [hadd]; exact hlt, k+1, by rw [hadd]; omega, ?_⟩
        rw [BitVec.toNat_add]; simp; omega
      split
      · exact ⟨⟨b1, b2⟩, hrr, hn, fun _ => ⟨key, registry_congr h2 rfl rfl rfl rfl, h3⟩⟩
      · exact ⟨⟨b1, b2⟩, hrr, hn, fun _ => ⟨key, registry_congr h2 rfl rfl rfl rfl, h3⟩⟩

theorem inv_receive {s u : State} (h : s.Inv) (hl : s.live = true) {f : Frame} (hu : receive f s = .ok u) : u.Inv := by
  rcases receive_cases hu with e | e | e | e
  · rw [e]; exact inv_intakeSingle h hl f
  · rw [e]; exact inv_intakeFirst h hl f
  · exact inv_intakeConsecutive h hl e
  · rwa [e]

/-! ### Registry -/

theorem chains_insert {s : State} (k : Byte) (v : ServiceEntry) (h : registryInv s) (hf : (regFind k s).isSome = false) :
   chainsInv { s with
        reg := putRow rowKey (k, v) s.reg
        regChains := s.regChains.modify (bucketOf s.cfg.bucketCount k) (fun chain => k :: chain)
        regRemaining := s.regRemaining - 1 } := by
  obtain ⟨b0, _, _, hlen, hch⟩ := h
  refine ⟨by simp [hlen], ?_⟩
  intro b chain hc
  have hfind : ∀ k', (regFind k' ({ s with
        reg := putRow rowKey (k, v) s.reg
        regChains := s.regChains.modify (bucketOf s.cfg.bucketCount k) (fun chain => k :: chain)
        regRemaining := s.regRemaining - 1 } : State)).isSome = if k' = k then true else (regFind k' s).isSome := by
    intro k'; unfold regFind; simp only [find_put]; split <;> rfl
  simp only [hfind]
  simp only [List.getElem?_modify] at hc
  cases ho : s.regChains[b]? with
  | none => simp [ho] at hc
  | some c0 =>
    obtain ⟨nd, hm⟩ := hch b c0 ho
    simp only [ho, Option.map_some, Option.some.injEq, Functor.map] at hc
    split at hc
    · next hbk =>
      subst hc
      refine ⟨List.nodup_cons.2 ⟨?_, nd⟩, ?_⟩
      · rw [hm]; simp [hf]
      · intro k'; rw [List.mem_cons, hm]
        by_cases e : k' = k
        · subst e; simp [hbk]
        · simp [e]
    · next hbk =>
      subst hc
      refine ⟨nd, fun k' => ?_⟩
      rw [hm]
      by_cases e : k' = k
      · subst e; simp [hf, hbk]
      · simp [e]

theorem chains_remove {s : State} (k : Byte) (h : registryInv s)  :
   chainsInv { s with
        reg := dropRow rowKey k.toNat s.reg
        regChains := s.regChains.modify (bucketOf s.cfg.bucketCount k) (fun chain => chain.filter (fun x => decide (x ≠ k)))
        regRemaining := s.regRemaining + 1 } := by
  obtain ⟨b0, _, _, hlen, hch⟩ := h
  refine ⟨by simp [hlen], ?_⟩
  intro b chain hc
  have hfind : ∀ k', (regFind k' ({ s with
        reg := dropRow rowKey k.toNat s.reg
        regChains := s.regChains.modify (bucketOf s.cfg.bucketCount k) (fun chain => chain.filter (fun x => decide (x ≠ k)))
        regRemaining := s.regRemaining + 1 } : State)).isSome = if k' = k then false else (regFind k' s).isSome := by
    intro k'; unfold regFind; simp only [find_drop]; split <;> rfl
  simp only [hfind]
  simp only [List.getElem?_modify] at hc
  cases ho : s.regChains[b]? with
  | none => simp [ho] at hc
  | some c0 =>
    obtain ⟨nd, hm⟩ := hch b c0 ho
    simp only [ho, Option.map_some, Option.some.injEq, Functor.map] at hc
    split at hc
    · next hbk =>
      subst hc
      refine ⟨nd.filter _, ?_⟩
      intro k'; rw [List.mem_filter, hm]
      by_cases e : k' = k <;> simp [e]
    · next hbk =>
      subst hc
      refine ⟨nd, fun k' => ?_⟩
      rw [hm]
      by_cases e : k' = k
      · subst e; simp [hbk]
      · simp [e]

theorem inv_regInsert {s : State} (h : s.Inv) (hl : s.live = true) (hd : s.dispState = .idle) (k : Byte) (v : ServiceEntry)
    (hv : v.subs.length ≤ s.cfg.maxSubfunctions) : (regInsert k v s).2.Inv := by
  obtain ⟨hb, hrr, hn, hll⟩ := h
  obtain ⟨h1, h2, h3⟩ := hll hl
  rcases regInsert_cases k v s with ⟨hf, e⟩ | ⟨_, _, e⟩ | ⟨hf, hr, e⟩
  · rw [e]
    refine ⟨hb, rowsRise_putRow rowKey _ hrr, hn, fun _ => ⟨h1, ⟨h2.1, ?_, ?_, h2.2.2.2.1, ?_⟩, ⟨h3.1, fun x => absurd hd x⟩⟩⟩
    · obtain ⟨q, hq⟩ := Option.isSome_iff_exists.1 hf
      unfold regFind at hq
      obtain ⟨r, hr, _⟩ := Option.map_eq_some_iff.1 hq
      simp only [length_putRow_old rowKey (r := (k, v)) hrr hr]
      exact h2.2.1
    · intro r hr
      rcases mem_putRow rowKey hr with rfl | hr
      · exact hv
      · exact h2.2.2.1 r hr
    · intro b chain hc
      obtain ⟨nd, hm⟩ := h2.2.2.2.2 b chain hc
      refine ⟨nd, fun k' => ?_⟩
      rw [hm]
      have : regFind k' ({ s with reg := putRow rowKey (k, v) s.reg } : State) = if k' = k then some v else regFind k' s := by
        unfold regFind; simp only [find_put]
      rw [this]
      by_cases e : k' = k
      · subst e; simp [hf]
      · simp [e]
  · rw [e]; exact ⟨hb, hrr, hn, hll⟩
  · rw [e]
    refine ⟨hb, rowsRise_putRow rowKey _ hrr, hn, fun _ => ⟨h1, ⟨h2.1, ?_, ?_, chains_insert k v h2 hf⟩, ⟨h3.1, fun x => absurd hd x⟩⟩⟩
    · have : findRow rowKey (rowKey (k, v)) s.reg = none := by
        unfold regFind at hf; simpa [rowKey_mk] using hf
      simp only [length_putRow_new rowKey this]
      have := h2.2.1; omega
    · intro r hr
      rcases mem_putRow rowKey hr with rfl | hr
      · exact hv
      · exact h2.2.2.1 r hr

theorem inv_regRemove {s : State} (h : s.Inv) (hl : s.live = true) (hd : s.dispState = .idle) (k : Byte) : (regRemove k s).2.Inv := by
  obtain ⟨hb, hrr, hn, hll⟩ := h
  obtain ⟨h1, h2, h3⟩ := hll hl
  rcases regRemove_cases k s with ⟨_, e⟩ | ⟨hf, e⟩
  · rw [e]; exact ⟨hb, hrr, hn, hll⟩
  · rw [e]
    refine ⟨hb, rowsRise_dropRow rowKey _ hrr, hn, fun _ => ⟨h1, ⟨h2.1, ?_, ?_, chains_remove k h2⟩, ⟨h3.1, fun x => absurd hd x⟩⟩⟩
    · obtain ⟨q, hq⟩ := Option.isSome_iff_exists.1 hf
      unfold regFind at hq
      obtain ⟨r, hr, _⟩ := Option.map_eq_some_iff.1 hq
      have := length_dropRow rowKey hrr hr
      have := h2.2.1; simp only; omega
    · exact fun r hr => h2.2.2.1 r (List.mem_of_mem_filter hr)

theorem mem_of_regFind {k : Byte} {s : State} {e : ServiceEntry} (h : regFind k s = some e) : (k, e) ∈ s.reg := by
  unfold regFind at h
  obtain ⟨r, hr, he⟩ := Option.map_eq_some_iff.1 h
  obtain ⟨hm, hk⟩ := mem_of_findRow rowKey hr
  have : r.1 = k := BitVec.eq_of_toNat_eq hk
  rw [← this, ← he]; exact hm

theorem appendSub_eq {s : State} (k : Byte) (x : SubEntry) : (appendSub k x s).2 = s ∨ ∃ e, regFind k s = some e ∧ e.subs.length < s.cfg.maxSubfunctions ∧ appendSub k x s = regInsert k { e with subs := e.subs ++ [x] } s := by
  unfold appendSub
  cases hf : regFind k s with
  | none => simp
  | some e =>
    simp only
    split
    · simp
    · next h => exact .inr ⟨e, rfl, by omega, by simp [regInsert, hf]⟩

theorem inv_appendSub {s : State} (h : s.Inv) (hl : s.live = true) (hd : s.dispState = .idle) (k : Byte) (x : SubEntry) : (appendSub k x s).2.Inv := by
  rcases appendSub_eq (s := s) k x with e | ⟨e, hf, hlt, he⟩
  · rwa [e]
  · rw [he]; exact inv_regInsert h hl hd k _ (by simpa using hlt)

/-! ### Dispatch -/

theorem inv_timeouts {s : State} (h : s.Inv) (hl : s.live = true) (hd : s.dispState = .idle) : (timeouts s).Inv := by
  unfold timeouts
  have : ({ s with sid := s.cfg.defaultSid, ssid := s.cfg.defaultSsid } : State).Inv :=
    inv_disp h rfl rfl rfl rfl rfl rfl rfl rfl rfl rfl rfl hl ⟨(h.2.2.2 hl).2.2.1, fun x => absurd hd x⟩
  split <;> split
  · exact inv_abort this
  · exact this
  · exact inv_abort h
  · exact h

theorem inv_finish {s : State} (h : s.Inv) (hl : s.live = true) (hb : s.busy = false) : (finish s).Inv := by
  refine inv_disp (inv_clear h) rfl rfl rfl rfl rfl rfl rfl rfl rfl rfl rfl hl ?_
  simp [dispatchInv, hb]

theorem inv_sub {s u : State} (h : s.Inv) (hl : s.live = true) (hb : s.busy = false) (hs : s.dispSid = s.sid) (hu : subfunctionPhase s = .ok u) : u.Inv := by
  obtain ⟨e, hf, h'⟩ := subfunctionPhase_cases hu
  rcases h' with ⟨_, e⟩ | ⟨x, _, ⟨_, e⟩ | ⟨_, e⟩⟩
  · rw [e]; exact inv_finish (inv_respondNegative h _) (by simpa) (by simpa)
  · rw [e]
    refine inv_disp h rfl rfl rfl rfl rfl rfl rfl rfl rfl rfl rfl hl ?_
    refine ⟨by simp, fun _ => ⟨hs, ?_⟩⟩
    rw [regFind_congr (s := s) (by simp)]; simp [hf]
  · rw [e]; exact inv_finish h hl hb

theorem inv_dispatch {s u : State} (h : s.Inv) (hl : s.live = true) (hd : s.dispState = .idle) (hu : dispatchRequest s = .ok u) : u.Inv := by
  have ht := inv_timeouts h hl hd
  have htl : (timeouts s).live = true := by unfold timeouts; split <;> split <;> simp [hl]
  have htd : (timeouts s).dispState = .idle := by unfold timeouts; split <;> split <;> simp [hd]
  rcases dispatchRequest_cases hu with ⟨_, e⟩ | ⟨_, _, e⟩ | ⟨_, _, e⟩
  · rwa [e]
  · rwa [e]
  · generalize timeouts s = t at *
    have ht' : (takeRequest t).Inv := by apply inv_congr ht <;> rfl
    have htb : t.busy = false := by
      have := (ht.2.2.2 htl).2.2.1; rw [htd] at this; simpa using this
    have hdd : (latchDispatched (takeRequest t)).Inv :=
      inv_disp ht rfl rfl rfl rfl rfl rfl rfl rfl rfl rfl rfl htl ⟨by simp [htb, htd], fun x => absurd htd x⟩
    rcases lookupRequest_cases e with ⟨_, e⟩ | ⟨x, hf, ⟨_, e⟩ | ⟨_, e⟩⟩
    · rw [e]; exact inv_clear (inv_respondNegative ht' _)
    · rw [e]
      refine inv_disp (hdd) rfl rfl rfl rfl rfl rfl rfl rfl rfl rfl rfl htl ?_
      refine ⟨by simp, fun _ => ⟨rfl, ?_⟩⟩
      simp only [callHandler_dispSid]
      rw [latchDispatched_dispSid, regFind_congr (s := takeRequest t) (by simp), hf]; rfl
    · exact inv_sub (hdd) htl htb rfl e


end Sys2Proof.Machine
end

