-- ==== Sys2Proof/Laws/PerInstr.lean ====
section
/-! SUPPORT. Laws stated for each instruction of the opcode table: the form of its encoding (spec 30_encoding.md). -/

namespace Sys2Proof.Laws.EncodedForm

/-- The type nibble of the frames a wire row stands for (R82 to R85, R88). -/
def wireType : Instr → Option Nibble
  | .frameSf _ _ => some 0
  | .frameFf _ _ => some 1
  | .frameCf _ _ => some 2
  | .frameFc _ _ _ _ => some 3
  | .frameReserved t _ _ | .frameReservedHi t _ _ => some t
  | .packSf _ _ | .unpackSf _ | .packFf _ _ | .unpackFf _ | .packCf _ _ _ | .unpackCf _ | .packFc _ _ _ | .unpackFc _
  | .registerService _ _ _ _ | .registerSubfunction _ _ _ _ _ | .findService _ | .removeService _
  | .init | .delete | .receiveFrame _ | .tick _ | .dispatch | .handlerReturn _ | .readState | .readBuf _
  | .respondPositive | .respondNegative _ | .reservedOpcode _ => none

/-- The form of a well-formed instruction's encoding: a wire row is a frame of its type nibble; any other row is a command packet with as many bytes
as its opcode determines (R95), or the byte of a reserved opcode alone (R94). -/
def Statement (i : Instr) : Prop :=
  i.wf = true →
    match encode i with
    | .wire f => wireType i = some f.typeNibble
    | .command packet =>
      wireType i = none ∧
        ∃ op operands, packet = op :: operands ∧
          (packetLength op = some (operands.length + 1) ∨ isReservedOpcode op = true ∧ operands = [])

theorem frameSf (len : Nibble) (p : Bytes7) : Statement (.frameSf len p) := fun _ => congrArg some (typeNibble_single ..).symm

theorem frameFf (t : Len12) (p : Bytes6) : Statement (.frameFf t p) := fun _ => congrArg some (typeNibble_first ..).symm

theorem frameCf (sn : Nibble) (p : Bytes7) : Statement (.frameCf sn p) := fun _ => congrArg some (typeNibble_consecutive ..).symm

theorem frameFc (fs : Nibble) (bs st : Byte) (r : Bytes5) : Statement (.frameFc fs bs st r) := fun _ => congrArg some (typeNibble_flowControl ..).symm

theorem frameReserved (t lo : Nibble) (p : Bytes7) : Statement (.frameReserved t lo p) := fun _ => congrArg some (typeNibble_ofPci ..).symm

theorem frameReservedHi (t lo : Nibble) (p : Bytes7) : Statement (.frameReservedHi t lo p) := fun _ => congrArg some (typeNibble_ofPci ..).symm

theorem packSf (len : Byte) (p : Bytes7) : Statement (.packSf len p) := fun _ => ⟨rfl, _, _, rfl, .inl rfl⟩

theorem unpackSf (f : Frame) : Statement (.unpackSf f) := fun _ => ⟨rfl, _, _, rfl, .inl rfl⟩

theorem packFf (t : Half) (p : Bytes6) : Statement (.packFf t p) := fun _ => ⟨rfl, _, _, rfl, .inl rfl⟩

theorem unpackFf (f : Frame) : Statement (.unpackFf f) := fun _ => ⟨rfl, _, _, rfl, .inl rfl⟩

theorem packCf (len sn : Byte) (p : Bytes7) : Statement (.packCf len sn p) := fun _ => ⟨rfl, _, _, rfl, .inl rfl⟩

theorem unpackCf (f : Frame) : Statement (.unpackCf f) := fun _ => ⟨rfl, _, _, rfl, .inl rfl⟩

theorem packFc (bs st fs : Byte) : Statement (.packFc bs st fs) := fun _ => ⟨rfl, _, _, rfl, .inl rfl⟩

theorem unpackFc (f : Frame) : Statement (.unpackFc f) := fun _ => ⟨rfl, _, _, rfl, .inl rfl⟩

theorem registerService (sid hflag hid : Byte) (v : Word) : Statement (.registerService sid hflag hid v) := fun _ => ⟨rfl, _, _, rfl, .inl rfl⟩

theorem registerSubfunction (sid ssid hflag hid : Byte) (v : Word) : Statement (.registerSubfunction sid ssid hflag hid v) := fun _ => ⟨rfl, _, _, rfl, .inl rfl⟩

theorem findService (k : Byte) : Statement (.findService k) := fun _ => ⟨rfl, _, _, rfl, .inl rfl⟩

theorem removeService (k : Byte) : Statement (.removeService k) := fun _ => ⟨rfl, _, _, rfl, .inl rfl⟩

theorem init : Statement .init := fun _ => ⟨rfl, _, _, rfl, .inl rfl⟩

theorem delete : Statement .delete := fun _ => ⟨rfl, _, _, rfl, .inl rfl⟩

theorem receiveFrame (f : Frame) : Statement (.receiveFrame f) := fun _ => ⟨rfl, _, _, rfl, .inl rfl⟩

theorem tick (v : Word) : Statement (.tick v) := fun _ => ⟨rfl, _, _, rfl, .inl rfl⟩

theorem dispatch : Statement .dispatch := fun _ => ⟨rfl, _, _, rfl, .inl rfl⟩

theorem handlerReturn (c : Byte) : Statement (.handlerReturn c) := fun _ => ⟨rfl, _, _, rfl, .inl rfl⟩

theorem readState : Statement .readState := fun _ => ⟨rfl, _, _, rfl, .inl rfl⟩

theorem readBuf (off : Half) : Statement (.readBuf off) := fun _ => ⟨rfl, _, _, rfl, .inl rfl⟩

theorem respondPositive : Statement .respondPositive := fun _ => ⟨rfl, _, _, rfl, .inl rfl⟩

theorem respondNegative (c : Byte) : Statement (.respondNegative c) := fun _ => ⟨rfl, _, _, rfl, .inl rfl⟩

theorem reservedOpcode (op : Byte) : Statement (.reservedOpcode op) := fun h => ⟨rfl, op, [], rfl, .inr ⟨h, rfl⟩⟩

end Sys2Proof.Laws.EncodedForm
end

