-- ==== Sys2Proof/Machine/Text.lean ====
section
/-! DEFINITION. The textual syntax of a command (spec 30_encoding.md R98): the mnemonic, then the operands in packet order, comma-separated, in
hexadecimal, frame and payload operands as a bracketed list. -/

namespace Sys2Proof.Machine

/-- A hexadecimal digit. -/
def hexDigit (n : Nat) : Char := "0123456789ABCDEF".toList.getD n '0'

/-- The last `n` hexadecimal digits of a number. -/
def hexDigits : Nat → Nat → List Char
  | 0, _ => []
  | n + 1, v => hexDigits n (v / 16) ++ [hexDigit (v % 16)]

/-- A number as `0x` and `n` digits. -/
def hexText (n v : Nat) : String := "0x" ++ String.ofList (hexDigits n v)

/-- A byte. -/
def byteText (b : Byte) : String := hexText 2 b.toNat

/-- A bracketed byte list. -/
def listText (l : List Byte) : String := "[" ++ String.intercalate ", " (l.map byteText) ++ "]"

/-- A mnemonic and its operands. -/
def line (mnemonic : String) (operands : List String) : String :=
  if operands.isEmpty then mnemonic else mnemonic ++ " " ++ String.intercalate ", " operands

/-- R98: the text of a command. The wire rows are written as the RECEIVE_FRAME of their unit; a reserved opcode has no text of its own. -/
def text (i : Instr) : String :=
  match i with
  | .packSf len p => line "PACK_SF" [byteText len, listText p.toList]
  | .unpackSf f => line "UNPACK_SF" [listText f.toList]
  | .packFf total p => line "PACK_FF" [hexText 4 total.toNat, listText p.toList]
  | .unpackFf f => line "UNPACK_FF" [listText f.toList]
  | .packCf len sn p => line "PACK_CF" [byteText len, byteText sn, listText p.toList]
  | .unpackCf f => line "UNPACK_CF" [listText f.toList]
  | .packFc bs st fs => line "PACK_FC" [byteText bs, byteText st, byteText fs]
  | .unpackFc f => line "UNPACK_FC" [listText f.toList]
  | .registerService sid hflag hid param =>
    line "REGISTER_SERVICE" [byteText sid, byteText hflag, byteText hid, hexText 8 param.toNat]
  | .registerSubfunction sid ssid hflag hid param =>
    line "REGISTER_SUBFUNCTION" [byteText sid, byteText ssid, byteText hflag, byteText hid, hexText 8 param.toNat]
  | .findService key => line "FIND_SERVICE" [byteText key]
  | .removeService key => line "REMOVE_SERVICE" [byteText key]
  | .init => "INIT"
  | .delete => "DELETE"
  | .receiveFrame f => line "RECEIVE_FRAME" [listText f.toList]
  | .tick now => line "TICK" [hexText 8 now.toNat]
  | .dispatch => "DISPATCH"
  | .handlerReturn code => line "HANDLER_RETURN" [byteText code]
  | .readState => "READ_STATE"
  | .readBuf off => line "READ_BUF" [hexText 4 off.toNat]
  | .respondPositive => "RESPOND_POSITIVE"
  | .respondNegative code => line "RESPOND_NEGATIVE" [byteText code]
  | .reservedOpcode _ => ""
  | .frameSf len p => line "RECEIVE_FRAME" [listText (Frame.single len p).toList]
  | .frameFf total p => line "RECEIVE_FRAME" [listText (Frame.first total p).toList]
  | .frameCf sn p => line "RECEIVE_FRAME" [listText (Frame.consecutive sn p).toList]
  | .frameFc fs bs st rsv => line "RECEIVE_FRAME" [listText (Frame.flowControl fs bs st rsv).toList]
  | .frameReserved t lo p | .frameReservedHi t lo p => line "RECEIVE_FRAME" [listText (Frame.ofPci t lo p).toList]

end Sys2Proof.Machine
end

