-- ==== Sys2Proof/Tests/Slice0.lean ====
section
/-! SUPPORT. Tests of the model: ill-formed terms, words written out from the encodings, one-step vectors of spec 95_test_vectors.md (each test names its
vectors), and, for each obligation with hypotheses, a state and operands that meet them. -/

namespace Sys2Proof.Tests

open Sys2Proof.Machine

/-! ### Helpers -/

/-- A live block under the vectors' configuration, two transmit answers `ok` waiting. -/
def live : State := { State.reset with txAnswers := [.ok, .ok] }

/-- The vectors' power-on. -/
def off : State := State.powerOn Config.vectors

/-- One step on a packet. -/
def run (packet : List Byte) (s : State) : Result := step { s with input := [.command packet] }

/-- The state after one packet. -/
def after (packet : List Byte) (s : State) : State :=
  match run packet s with
  | .next t => t
  | _ => s

/-- The events of one packet, its result packet last. -/
def events (packet : List Byte) (s : State) : List Event := (after packet s).trace.drop s.trace.length

/-- The fault of one packet. -/
def faultOf (packet : List Byte) (s : State) : Option Fault :=
  match run packet s with
  | .fault k => some k
  | _ => none

/-- The refusal of one packet. -/
def refusalOf (packet : List Byte) (s : State) : Option Refusal :=
  match run packet s with
  | .refused r => some r
  | _ => none

/-- The result packet of one packet, alone. -/
def answer (packet : List Byte) (s : State) : List Byte :=
  match events packet s with
  | [.result p] => p
  | _ => []

/-- A service with a handler, hid 1 (V-DS-3). -/
def service (subs : List SubEntry) : ServiceEntry := ⟨true, 1, 0, subs⟩

/-- 0x10 registered, its SF received and pending (V-DS-3). -/
def pending (subs : List SubEntry) : State :=
  { live with
    reg := [(0x10, service subs)]
    regRemaining := 31
    sid := 0x10
    ssid := 0x03
    active := .single }

/-- The same after DISPATCH has called the service handler. -/
def waitingService (subs : List SubEntry) : State :=
  { pending subs with active := .none, dispSid := 0x10, busy := true, dispState := .waitService }

/-- A reassembly after V-RX-6. -/
def receiving : State :=
  { live with
    tick := 4
    sid := 0x2E
    reasmState := .receiving
    reasmTotal := 20
    reasmRecv := 6
    reasmExpSn := 1
    reasmBuf := [(0, 0x2E), (1, 0xF1), (2, 0x90), (3, 0x41), (4, 0x42), (5, 0x43)]
    ncsActive := true }

/-! ### Ill-formed terms -/

theorem test_wf_refuses_frame_kinds_out_of_place :
    Instr.wf (.frameReserved 3 0 Bytes7.zero) = false ∧ Instr.wf (.frameReserved 8 0 Bytes7.zero) = false ∧
    Instr.wf (.frameReservedHi 7 0 Bytes7.zero) = false := by decide

theorem test_wf_refuses_a_real_opcode_as_reserved : Instr.wf (.reservedOpcode 0x20) = false ∧ Instr.wf (.reservedOpcode 0x08) = false := by decide

theorem test_wf_refuses_configurations :
    Config.wf { Config.vectors with reasmCapacity := 0 } = false ∧ Config.wf { Config.vectors with reasmCapacity := 4097 } = false ∧
    Config.wf { Config.vectors with keyWidth := 16 } = false ∧ Config.wf { Config.vectors with hrNoResponse := 0 } = false ∧
    Config.wf { Config.vectors with maxServices := 257 } = false ∧ Config.wf { Config.vectors with maxSubfunctions := 256 } = false ∧
    Config.wf { Config.vectors with bucketCount := 65536 } = false ∧ Config.wf { Config.vectors with bucketCount := 0 } = true := by decide

/-! ### Words written out from the encodings -/

/-- Every command, from the formats of R91 and the opcodes of R92. -/
theorem test_decode_codec_words :
    decode (.command [0x01, 0x03, 1, 2, 3, 4, 5, 6, 7]) = .ok (.packSf 3 ⟨1, 2, 3, 4, 5, 6, 7⟩) ∧
    decode (.command [0x02, 0x10, 1, 2, 3, 4, 5, 6, 7]) = .ok (.unpackSf ⟨0x10, 1, 2, 3, 4, 5, 6, 7⟩) ∧
    decode (.command [0x03, 0x01, 0x02, 1, 2, 3, 4, 5, 6]) = .ok (.packFf 0x0102 ⟨1, 2, 3, 4, 5, 6⟩) ∧
    decode (.command [0x04, 0x10, 1, 2, 3, 4, 5, 6, 7]) = .ok (.unpackFf ⟨0x10, 1, 2, 3, 4, 5, 6, 7⟩) ∧
    decode (.command [0x05, 0x07, 0x0F, 1, 2, 3, 4, 5, 6, 7]) = .ok (.packCf 7 15 ⟨1, 2, 3, 4, 5, 6, 7⟩) ∧
    decode (.command [0x06, 0x21, 1, 2, 3, 4, 5, 6, 7]) = .ok (.unpackCf ⟨0x21, 1, 2, 3, 4, 5, 6, 7⟩) ∧
    decode (.command [0x07, 0x08, 0x14, 0x01]) = .ok (.packFc 8 0x14 1) ∧
    decode (.command [0x08, 0x32, 1, 2, 3, 4, 5, 6, 7]) = .ok (.unpackFc ⟨0x32, 1, 2, 3, 4, 5, 6, 7⟩) := by decide

theorem test_decode_engine_words :
    decode (.command [0x10, 0x22, 0x01, 0x02, 0x01, 0x02, 0x03, 0x04]) = .ok (.registerService 0x22 1 2 0x01020304) ∧
    decode (.command [0x11, 0x22, 0x05, 0x01, 0x07, 0xDE, 0xAD, 0xBE, 0xEF]) = .ok (.registerSubfunction 0x22 5 1 7 0xDEADBEEF) ∧
    decode (.command [0x12, 0x2E]) = .ok (.findService 0x2E) ∧ decode (.command [0x13, 0x2E]) = .ok (.removeService 0x2E) ∧
    decode (.command [0x20]) = .ok .init ∧ decode (.command [0x21]) = .ok .delete ∧
    decode (.command [0x22, 0x10, 1, 2, 3, 4, 5, 6, 7]) = .ok (.receiveFrame ⟨0x10, 1, 2, 3, 4, 5, 6, 7⟩) ∧
    decode (.command [0x23, 0x00, 0x00, 0x30, 0x39]) = .ok (.tick 12345) ∧ decode (.command [0x24]) = .ok .dispatch ∧
    decode (.command [0x25, 0x22]) = .ok (.handlerReturn 0x22) ∧ decode (.command [0x26]) = .ok .readState ∧
    decode (.command [0x27, 0x0F, 0xFF]) = .ok (.readBuf 0x0FFF) ∧ decode (.command [0x30]) = .ok .respondPositive ∧
    decode (.command [0x31, 0x11]) = .ok (.respondNegative 0x11) ∧ decode (.command [0x09]) = .ok (.reservedOpcode 0x09) := by decide

/-- R81 to R85, R88: a frame of each kind. -/
theorem test_decode_wire_words :
    decodeFrame ⟨0x02, 0x10, 0x01, 0, 0, 0, 0, 0⟩ = .frameSf 2 ⟨0x10, 0x01, 0, 0, 0, 0, 0⟩ ∧
    decodeFrame ⟨0x1F, 0xFE, 1, 2, 3, 4, 5, 6⟩ = .frameFf 0xFFE ⟨1, 2, 3, 4, 5, 6⟩ ∧
    decodeFrame ⟨0x2F, 1, 2, 3, 4, 5, 6, 7⟩ = .frameCf 15 ⟨1, 2, 3, 4, 5, 6, 7⟩ ∧
    decodeFrame ⟨0x31, 0x08, 0x14, 1, 2, 3, 4, 5⟩ = .frameFc 1 0x08 0x14 ⟨1, 2, 3, 4, 5⟩ ∧
    decodeFrame ⟨0x7A, 1, 2, 3, 4, 5, 6, 7⟩ = .frameReserved 7 0xA ⟨1, 2, 3, 4, 5, 6, 7⟩ ∧
    decodeFrame ⟨0x8A, 1, 2, 3, 4, 5, 6, 7⟩ = .frameReservedHi 8 0xA ⟨1, 2, 3, 4, 5, 6, 7⟩ := by decide

/-- The table's words (assumption 12): a command packet, a wire unit, and a word that both could be. -/
theorem test_decode_table_words :
    decodeTableWord 8 0x20 = some .init ∧ decodeTableWord 16 0x1131 = some (.respondNegative 0x11) ∧
    decodeTableWord 8 0x40 = some (.frameReserved 4 0 Bytes7.zero) ∧ decodeTableWord 8 0x10 = some (.registerService 0 0 0 0) := by decide

/-- The host's word placed for the next step runs as the first instruction. -/
theorem test_fetch_word_runs : ∃ t, step (State.reset.withFetchWord 8 0x26) = .next t ∧ t.input = [] := ⟨_, rfl, rfl⟩

/-! ### Frame codec: V-CD-1 to V-CD-31, on a block at power-on (R120, V-LC-1) -/

theorem test_pack_sf :
    answer [0x01, 0x02, 0x10, 0x01, 0xAA, 0, 0, 0, 0] off = [0x00, 0x02, 0x10, 0x01, 0, 0, 0, 0, 0] ∧
    answer [0x01, 0x07, 1, 2, 3, 4, 5, 6, 7] off = [0x00, 0x07, 1, 2, 3, 4, 5, 6, 7] ∧
    answer [0x01, 0x08, 1, 2, 3, 4, 5, 6, 7] off = [0x02, 0, 0, 0, 0, 0, 0, 0, 0] ∧
    answer [0x01, 0x00, 0, 0, 0, 0, 0, 0, 0] off = [0x02, 0, 0, 0, 0, 0, 0, 0, 0] := ⟨rfl, rfl, rfl, rfl⟩

theorem test_unpack_sf :
    answer [0x02, 0x01, 0x3E, 0x55, 0x66, 0x77, 0, 0, 0] off = [0x00, 0x01, 0x3E, 0x55, 0x66, 0x77, 0, 0, 0] ∧
    answer [0x02, 0x00, 0xAA, 0xBB, 0, 0, 0, 0, 0] off = [0x00, 0x00, 0xAA, 0xBB, 0, 0, 0, 0, 0] ∧
    answer [0x02, 0x08, 1, 2, 3, 4, 5, 6, 7] off = [0x02, 0, 0, 0, 0, 0, 0, 0, 0] ∧
    answer [0x02, 0x18, 0, 0, 0, 0, 0, 0, 0] off = [0x03, 0, 0, 0, 0, 0, 0, 0, 0] := ⟨rfl, rfl, rfl, rfl⟩

theorem test_pack_ff :
    answer [0x03, 0x00, 0x14, 0x22, 0xF1, 0x90, 0xAA, 0xBB, 0xCC] off = [0x00, 0x10, 0x14, 0x22, 0xF1, 0x90, 0xAA, 0xBB, 0xCC] ∧
    answer [0x03, 0x0F, 0xFF, 1, 2, 3, 4, 5, 6] off = [0x00, 0x1F, 0xFF, 1, 2, 3, 4, 5, 6] ∧
    answer [0x03, 0x00, 0x07, 1, 2, 3, 4, 5, 6] off = [0x02, 0, 0, 0, 0, 0, 0, 0, 0] ∧
    answer [0x03, 0x10, 0x00, 1, 2, 3, 4, 5, 6] off = [0x02, 0, 0, 0, 0, 0, 0, 0, 0] := ⟨rfl, rfl, rfl, rfl⟩

theorem test_unpack_ff :
    answer [0x04, 0x1F, 0xFF, 1, 2, 3, 4, 5, 6] off = [0x00, 0x0F, 0xFF, 1, 2, 3, 4, 5, 6] ∧
    answer [0x04, 0x10, 0x07, 0, 0, 0, 0, 0, 0] off = [0x02, 0, 0, 0, 0, 0, 0, 0, 0] ∧
    answer [0x04, 0x25, 0x00, 0, 0, 0, 0, 0, 0] off = [0x03, 0, 0, 0, 0, 0, 0, 0, 0] := ⟨rfl, rfl, rfl⟩

theorem test_pack_cf :
    answer [0x05, 0x03, 0x00, 0x08, 0x09, 0x0A, 0xFF, 0xFF, 0xFF, 0xFF] off = [0x00, 0x20, 0x08, 0x09, 0x0A, 0, 0, 0, 0] ∧
    answer [0x05, 0x01, 0x0F, 0xAB, 0, 0, 0, 0, 0, 0] off = [0x00, 0x2F, 0xAB, 0, 0, 0, 0, 0, 0] ∧
    answer [0x05, 0x01, 0x10, 0xAB, 0, 0, 0, 0, 0, 0] off = [0x01, 0, 0, 0, 0, 0, 0, 0, 0] ∧
    answer [0x05, 0x00, 0x10, 0, 0, 0, 0, 0, 0, 0] off = [0x02, 0, 0, 0, 0, 0, 0, 0, 0] := ⟨rfl, rfl, rfl, rfl⟩

theorem test_unpack_cf :
    answer [0x06, 0x2F, 1, 2, 3, 4, 5, 6, 7] off = [0x00, 0x0F, 1, 2, 3, 4, 5, 6, 7] ∧
    answer [0x06, 0x12, 0, 0, 0, 0, 0, 0, 0] off = [0x03, 0, 0, 0, 0, 0, 0, 0, 0] := ⟨rfl, rfl⟩

theorem test_pack_fc :
    answer [0x07, 0x00, 0x00, 0x00] off = [0x00, 0x30, 0, 0, 0, 0, 0, 0, 0] ∧
    answer [0x07, 0xFF, 0xF1, 0x13] off = [0x00, 0x33, 0xFF, 0xF1, 0, 0, 0, 0, 0] := ⟨rfl, rfl⟩

theorem test_unpack_fc :
    answer [0x08, 0x35, 0x01, 0x02, 9, 9, 9, 9, 9] off = [0x00, 0x05, 0x01, 0x02] ∧
    answer [0x08, 0x20, 0, 0, 0, 0, 0, 0, 0] off = [0x03, 0, 0, 0] := ⟨rfl, rfl⟩

/-! ### Registry -/

/-- V-RG-1, V-RG-2. -/
theorem test_hash :
    ([0x00, 0x01, 0x10, 0x11, 0x22, 0x27, 0x2E, 0x31, 0x3E, 0x99, 0xFF] : List Byte).map (bucketOf 16) = [0, 1, 0, 1, 2, 7, 14, 1, 14, 9, 15] ∧
    ([0x01, 0x10, 0x22, 0x2E, 0x3E, 0x99, 0xFF] : List Byte).map (bucketOf 7) = [2, 2, 1, 6, 1, 3, 5] := by decide

/-- V-RG-4, V-RG-6. -/
theorem test_register_service :
    answer [0x10, 0x10, 0x01, 0x01, 0, 0, 0, 0] live = [0x00] ∧ (after [0x10, 0x10, 0x01, 0x01, 0, 0, 0, 0] live).regRemaining = 31 ∧
    answer [0x10, 0x10, 0x00, 0x09, 1, 2, 3, 4] { pending [] with regRemaining := 0 } = [0x00] ∧
    answer [0x12, 0x10] (after [0x10, 0x10, 0x00, 0x09, 1, 2, 3, 4] { pending [⟨1, false, 0, 0⟩] with regRemaining := 0 }) =
      [0x00, 0x00, 0x09, 1, 2, 3, 4, 0x00] := ⟨rfl, rfl, rfl, rfl⟩

/-- V-RG-7. -/
theorem test_register_service_without_storage : answer [0x10, 0x10, 0x01, 0x01, 0, 0, 0, 0] { live with regRemaining := 0 } = [0x05] := rfl

/-- V-RG-8, V-RG-9, V-RG-10. -/
theorem test_register_subfunction :
    answer [0x11, 0x10, 0x01, 0x01, 0x02, 0, 0, 0, 0] live = [0x06] ∧
    answer [0x11, 0x10, 0x01, 0x00, 0x00, 0, 0, 0, 0] (pending []) = [0x00] ∧
    answer [0x11, 0x10, 0x02, 0x00, 0x00, 0, 0, 0, 0]
      { pending [⟨1, false, 0, 0⟩] with cfg := { Config.vectors with maxSubfunctions := 1 } } = [0x05] ∧
    answer [0x11, 0x10, 0x01, 0x00, 0x00, 0, 0, 0, 0] { live with cfg := { Config.vectors with maxSubfunctions := 0 } } = [0x06] :=
  ⟨rfl, rfl, rfl, rfl⟩

/-- V-RG-3 steps 3 and 7, P3's end state. -/
theorem test_find_service :
    answer [0x12, 0x2E] { live with reg := [(0x2E, ⟨true, 1, 0, []⟩), (0x3E, ⟨true, 2, 0, []⟩)] } = [0x00, 0x01, 0x01, 0, 0, 0, 0, 0x00] ∧
    answer [0x12, 0x2E] live = [0x06, 0, 0, 0, 0, 0, 0, 0] ∧
    answer [0x12, 0x10] (pending [⟨1, false, 0, 0⟩]) = [0x00, 0x01, 0x01, 0, 0, 0, 0, 0x01] := ⟨rfl, rfl, rfl⟩

/-- V-RG-12, and V-RG-3 step 6. -/
theorem test_remove_service :
    answer [0x13, 0x10] (pending []) = [0x00] ∧ (after [0x13, 0x10] (pending [])).regRemaining = 32 ∧ answer [0x13, 0x77] (pending []) = [0x06] ∧
    answer [0x12, 0x3E] (after [0x13, 0x2E] { live with reg := [(0x2E, ⟨true, 1, 0, []⟩), (0x3E, ⟨true, 2, 0, []⟩)] }) =
      [0x00, 0x01, 0x02, 0, 0, 0, 0, 0x00] := ⟨rfl, rfl, rfl, rfl⟩

/-! ### Frame intake -/

/-- V-RX-1, V-RX-3. -/
theorem test_receive_single :
    (let t := after [0x22, 0x02, 0x10, 0x01, 0, 0, 0, 0, 0] { live with tick := 7 }
     t.sid = 0x10 ∧ t.ssid = 0x01 ∧ t.active = .single ∧ t.lastActivity = 7 ∧ t.rxLen = 2 ∧ t.rxBuf = ⟨0x10, 0x01, 0, 0, 0, 0, 0⟩) ∧
    (let t := after [0x22, 0x00, 0xAA, 0xBB, 0, 0, 0, 0, 0] live
     t.sid = 0xAA ∧ t.ssid = 0x00 ∧ t.active = .single ∧ t.rxLen = 0) := by decide

/-- V-RX-6, V-RX-12. -/
theorem test_receive_first :
    (events [0x22, 0x10, 0x14, 0x2E, 0xF1, 0x90, 0x41, 0x42, 0x43] { live with tick := 100 } =
      [.tx ⟨0x30, 0, 0, 0, 0, 0, 0, 0⟩ .ok, .result [0x00]]) ∧
    (let t := after [0x22, 0x10, 0x14, 0x2E, 0xF1, 0x90, 0x41, 0x42, 0x43] { live with tick := 100 }
     t.reasmTotal = 20 ∧ t.reasmRecv = 6 ∧ t.reasmExpSn = 1 ∧ t.sid = 0x2E ∧ t.ssid = 0x01 ∧ t.ncsActive = true ∧ t.ncsMark = 100 ∧
       t.lastActivity = 100 ∧ t.reasmBuf = receiving.reasmBuf) ∧
    events [0x22, 0x10, 0x0A, 0x22, 0xF1, 0x90, 0, 0, 0] { receiving with busy := true, sid := 0x10 } =
      [.tx ⟨0x03, 0x7F, 0x10, 0x24, 0, 0, 0, 0⟩ .ok, .tx ⟨0x03, 0x7F, 0x10, 0x21, 0, 0, 0, 0⟩ .ok, .result [0x00]] := by decide

/-- FRAME_SF on the wire: V-RX-5, V-RX-4. -/
theorem test_wire_single :
    (∃ t, exec (.frameSf 2 ⟨0x3E, 0, 0, 0, 0, 0, 0⟩) { live with busy := true } = .next t ∧
      t.trace = [.tx ⟨0x03, 0x7F, 0x10, 0x21, 0, 0, 0, 0⟩ .ok, .result [0x00]] ∧ t.sid = 0x10) ∧
    (∃ t, exec (.frameSf 8 ⟨0x10, 0x01, 0, 0, 0, 0, 0⟩) live = .next t ∧ t = { live with trace := [.result [0x00]] }) :=
  ⟨⟨_, rfl, by decide, rfl⟩, ⟨_, rfl, rfl⟩⟩

/-- FRAME_FF on the wire: V-RX-13, V-RX-8. -/
theorem test_wire_first :
    (∃ t, exec (.frameFf 20 ⟨0x2E, 0, 0, 0, 0, 0⟩) { live with cfg := { Config.vectors with reasmCapacity := 16 }, tick := 9 } = .next t ∧
      t.trace = [.tx ⟨0x03, 0x7F, 0x10, 0x14, 0, 0, 0, 0⟩ .ok, .result [0x00]] ∧ t.reasmState = .idle ∧ t.lastActivity = 9 ∧ t.sid = 0x10) ∧
    (∃ t, exec (.frameFf 7 ⟨0x22, 0, 0, 0, 0, 0⟩) receiving = .next t ∧ t = { receiving with trace := [.result [0x00]] }) :=
  ⟨⟨_, rfl, by decide, rfl, rfl, rfl⟩, ⟨_, rfl, rfl⟩⟩

/-- FRAME_CF on the wire: V-RX-10, V-RX-18. -/
theorem test_wire_consecutive :
    (∃ t, exec (.frameCf 1 ⟨0x44, 0x45, 0x46, 0x47, 0x48, 0x49, 0x4A⟩) receiving = .next t ∧
      t.reasmRecv = 13 ∧ t.reasmExpSn = 2 ∧ t.reasmState = .receiving ∧ t.lastActivity = 4 ∧ t.ncsMark = 4 ∧ Memory.read t.reasmBuf 12 = 0x4A) ∧
    (∃ t, exec (.frameCf 2 ⟨0xAA, 0xBB, 0xCC, 0xDD, 0xEE, 0xFF, 0x11⟩) { receiving with reasmTotal := 14, reasmRecv := 13, reasmExpSn := 2 } =
        .next t ∧
      t.reasmRecv = 14 ∧ t.reasmState = .complete ∧ t.active = .multi ∧ Memory.read t.reasmBuf 13 = 0xAA ∧ Memory.read t.reasmBuf 14 = 0) :=
  ⟨⟨_, rfl, by decide⟩, ⟨_, rfl, by decide⟩⟩

/-- V-RX-17: a duplicate sequence number. -/
theorem test_wire_consecutive_out_of_sequence :
    ∃ t, exec (.frameCf 1 Bytes7.zero) { receiving with reasmExpSn := 2, tick := 50 } = .next t ∧
      t.trace = [.tx ⟨0x03, 0x7F, 0x2E, 0x24, 0, 0, 0, 0⟩ .ok, .result [0x00]] ∧ t.reasmState = .idle ∧ t.reasmBuf = [] ∧
      t.ncsActive = false ∧ t.lastActivity = 50 := ⟨_, rfl, by decide⟩

/-- FRAME_FC: V-RX-19. FRAME_RESERVED: V-RX-20. FRAME_RESERVED_HI: R215. -/
theorem test_wire_frames_that_do_nothing :
    (∃ t, exec (.frameFc 0 0 0 Bytes5.zero) { receiving with tick := 30 } = .next t ∧ t = { receiving with tick := 30, trace := [.result [0x00]] }) ∧
    (∃ t, exec (.frameReserved 4 15 ⟨255, 255, 255, 255, 255, 255, 255⟩) live = .next t ∧ t = { live with trace := [.result [0x00]] }) ∧
    (∃ t, exec (.frameReservedHi 15 0 Bytes7.zero) live = .next t ∧ t = { live with trace := [.result [0x00]] }) :=
  ⟨⟨_, rfl, rfl⟩, ⟨_, rfl, rfl⟩, ⟨_, rfl, rfl⟩⟩

/-! ### Timers and dispatch -/

/-- V-TM-1, V-TM-2. -/
theorem test_tick :
    (after [0x23, 0x00, 0x00, 0x30, 0x39] { live with tick := 41 }).tick = 42 ∧ (after [0x23, 0, 0, 0, 0] { live with tick := 0xFFFFFFFF }).tick = 0 :=
  ⟨rfl, rfl⟩

/-- V-TM-4, V-TM-5, V-TM-7. -/
theorem test_dispatch_timeouts :
    events [0x24] { pending [] with tick := 4999 } = [.hcall .service 0x10 0x03 1 0, .result [0x00]] ∧
    (let t := after [0x24] { pending [] with tick := 5000, sid := 0x22 }
     t.sid = 0x10 ∧ t.ssid = 0x01 ∧ t.active = .single ∧ t.trace = [.result [0x00]]) ∧
    (let t := after [0x24] { receiving with tick := 5000 }
     t.sid = 0x10 ∧ t.ssid = 0x01 ∧ t.reasmState = .idle) := by decide

/-- V-DS-2. -/
theorem test_dispatch_unregistered :
    let t := after [0x24] { live with sid := 0x99, active := .single, rxLen := 2, rxBuf := ⟨0x99, 0x01, 0, 0, 0, 0, 0⟩ }
    t.trace = [.tx ⟨0x03, 0x7F, 0x99, 0x11, 0, 0, 0, 0⟩ .ok, .result [0x00]] ∧ t.active = .none ∧ t.rxLen = 0 ∧ t.rxBuf = Bytes7.zero := by decide

/-- V-DS-3, V-DS-5 after the service call. -/
theorem test_handler_return_of_a_service :
    events [0x25, 0x22] { waitingService [] with ssid := 0x01 } =
      [.tx ⟨0x03, 0x7F, 0x10, 0x22, 0, 0, 0, 0⟩ .ok, .tx ⟨0x03, 0x7F, 0x10, 0x12, 0, 0, 0, 0⟩ .ok, .result [0x00]] ∧
    events [0x25, 0x00] (waitingService [⟨0x03, true, 4, 0x0000ABCD⟩]) =
      [.tx ⟨0x02, 0x50, 0x03, 0, 0, 0, 0, 0⟩ .ok, .hcall .subfunction 0x10 0x03 4 0x0000ABCD, .result [0x00]] := by decide

/-- P7 step 7, V-DS-7. -/
theorem test_handler_return_of_a_subfunction :
    (let s := { waitingService [] with sid := 0x22, dispState := .waitSub }
     events [0x25, 0x31] s = [.tx ⟨0x03, 0x7F, 0x22, 0x31, 0, 0, 0, 0⟩ .ok, .result [0x00]] ∧ (after [0x25, 0x31] s).busy = false ∧
       (after [0x25, 0x31] s).dispState = .idle) ∧
    faultOf [0x25, 0x00] live = some .noHandlerCall := by decide

/-! ### Responses -/

/-- V-RS-1, V-RS-2. -/
theorem test_respond_positive :
    events [0x30] live = [.tx ⟨0x02, 0x50, 0x01, 0, 0, 0, 0, 0⟩ .ok, .result [0x00]] ∧
    events [0x30] { live with sid := 0xC0, ssid := 0 } = [.tx ⟨0x01, 0x00, 0, 0, 0, 0, 0, 0⟩ .ok, .result [0x00]] := by decide

/-- V-RS-7, V-RS-6 for a negative response. -/
theorem test_respond_negative :
    events [0x31, 0x31] { live with txAnswers := [.fail] } = [.tx ⟨0x03, 0x7F, 0x10, 0x31, 0, 0, 0, 0⟩ .fail, .result [0x08]] ∧
    events [0x31, 0x11] { live with cfg := { Config.vectors with txPresent := false } } = [.result [0x08]] := by decide

/-! ### Lifecycle and observation -/

/-- V-LC-3, V-LC-5's first step, V-LC-4. -/
theorem test_init :
    answer [0x20] { live with live := false, cfg := { Config.vectors with bucketCount := 0 } } = [0x01] ∧
    answer [0x20] { live with live := false, sid := 0x77, reg := [(0x10, service [])] } = [0x00] ∧
    (after [0x20] { live with live := false, sid := 0x77, reg := [(0x10, service [])] }).reg = [] ∧ faultOf [0x20] live = some .alreadyLive :=
  ⟨rfl, rfl, rfl, rfl⟩

/-- V-LC-8, V-LC-10. -/
theorem test_delete :
    answer [0x21] receiving = [0x00] ∧ faultOf [0x26] (after [0x21] receiving) = some .notLive ∧
    faultOf [0x21] { waitingService [] with dispState := .waitSub } = some .commandDuringDispatch := ⟨rfl, rfl, rfl⟩

/-- V-LC-5. -/
theorem test_read_state :
    answer [0x26] State.reset =
      [0x00, 0x10, 0x01, 0, 0, 0, 0, 0, 0, 0, 0, 0, 0, 0, 0, 0, 0, 0, 0, 0, 0, 0, 0, 0, 0, 0, 0x00, 0x20, 0, 0, 0, 0, 0, 0, 0, 0] := by decide

/-- V-LC-6, V-LC-7, P2 step 9. -/
theorem test_read_buf :
    answer [0x27, 0x0F, 0xFF] live = [0x00, 0x00] ∧ answer [0x27, 0x10, 0x00] live = [0x01, 0x00] ∧
    answer [0x27, 0x00, 0x13] { live with reasmBuf := [(0x13, 0x51)] } = [0x00, 0x51] := ⟨rfl, rfl, rfl⟩

/-! ### Refusals, faults and check order -/

/-- V-EX-1 to V-EX-4. -/
theorem test_refused_packets :
    refusalOf [0x09] live = some (.reservedOpcode 0x09) ∧ refusalOf [0x07, 0x00, 0x00] live = some (.malformedPacket (.wrongLength 0x07)) ∧
    refusalOf [0x24, 0x00] live = some (.malformedPacket (.wrongLength 0x24)) ∧
    refusalOf [0xFF, 0x00, 0x00, 0x00] live = some (.reservedOpcode 0xFF) := by decide

/-- V-DS-8, V-DS-9, V-LC-2, V-EX-5. -/
theorem test_admission_faults :
    faultOf [0x24] (waitingService []) = some .commandDuringDispatch ∧
    faultOf [0x10, 0x22, 1, 1, 0, 0, 0, 0] (waitingService []) = some .commandDuringDispatch ∧
    faultOf [0x23, 0, 0, 0, 0] { live with live := false } = some .notLive ∧
    faultOf [0x25, 0x00] { live with live := false } = some .notLive := by decide

/-- The text of R98. -/
theorem test_text :
    text (.packSf 3 ⟨0xAA, 0xBB, 0xCC, 0, 0, 0, 0⟩) = "PACK_SF 0x03, [0xAA, 0xBB, 0xCC, 0x00, 0x00, 0x00, 0x00]" ∧
    text (.registerService 0x22 1 2 0) = "REGISTER_SERVICE 0x22, 0x01, 0x02, 0x00000000" := by decide

/-- Bulk registration of R99 stops after the first failure. -/
theorem test_bulk_stops :
    ∃ t, bulkRegisterServices [⟨1, 1, 1, 0⟩, ⟨2, 1, 1, 0⟩, ⟨1, 0, 9, 0⟩] { live with regRemaining := 1 } = .next t ∧
      t.trace = [.result [0x00], .result [0x05]] ∧ regFind 1 t = some ⟨true, 1, 0, []⟩ := ⟨_, rfl, by decide⟩

/-! ### Witnesses: states and operands that meet the hypotheses of the obligations -/

theorem hyp_DecodeOfEncodeIsIdentity :
    Instr.wf (.frameReserved 4 0 Bytes7.zero) = true ∧ Instr.wf (.frameReserved 7 15 Bytes7.zero) = true ∧
    Instr.wf (.frameReservedHi 8 0 Bytes7.zero) = true ∧ Instr.wf (.frameReservedHi 15 0 Bytes7.zero) = true ∧
    Instr.wf (.reservedOpcode 0x32) = true ∧ Instr.wf (.readBuf 0xFFFF) = true := by decide

theorem hyp_EncodeOfDecodeIsIdentity :
    decode (.command [0x31, 0x11]) = .ok (.respondNegative 0x11) ∧ (∀ op, Instr.respondNegative 0x11 ≠ .reservedOpcode op) :=
  ⟨rfl, fun _ => nofun⟩

theorem hyp_ReservedAndMalformedPacketsRejected :
    packetLength 0x05 = some 10 ∧ ([0x07] : List Byte).length + 1 ≠ 10 ∧ packetLength 0x31 = some 2 ∧ ([0x11] : List Byte).length + 1 = 2 := by decide

theorem hyp_FramesClassifiedByTypeNibble :
    (0x0F : Byte).toNat / 16 = 0 ∧ (0x10 : Byte).toNat / 16 = 1 ∧ (0x2F : Byte).toNat / 16 = 2 ∧ (0x30 : Byte).toNat / 16 = 3 ∧
    (4 ≤ (0x40 : Byte).toNat / 16 ∧ (0x7F : Byte).toNat / 16 ≤ 7) ∧ 8 ≤ (0x80 : Byte).toNat / 16 := by decide

theorem hyp_StepRunsDecodedInstruction :
    let s := { live with input := [.command [0x24], .wire ⟨0x02, 0x10, 0x01, 0, 0, 0, 0, 0⟩] }
    s.fault = none ∧ s.refused = false ∧ s.cfg.wf = true ∧ s.input = .command [0x24] :: [.wire ⟨0x02, 0x10, 0x01, 0, 0, 0, 0, 0⟩] ∧
      decode (.command [0x24]) = .ok .dispatch := by decide

theorem hyp_StepWithoutInstruction :
    ({ live with fault := some .notLive } : State).fault = some .notLive ∧
    (let s := { live with refused := true }
     s.fault = none ∧ s.refused = true) ∧
    (let s := { live with cfg := { Config.vectors with keyWidth := 16 } }
     s.fault = none ∧ s.refused = false ∧ s.cfg.wf = false) ∧
    (live.fault = none ∧ live.refused = false ∧ live.cfg.wf = true ∧ live.input = []) ∧
    (let s := { live with input := [.command [0x07]] }
     s.fault = none ∧ s.refused = false ∧ s.cfg.wf = true ∧ s.input = .command [0x07] :: [] ∧
       decode (.command [0x07]) = .error (.wrongLength 0x07)) := by decide

theorem hyp_FaultsAndRefusalsAreFinal :
    step { live with input := [.command [0x25, 0x00]] } = .fault .noHandlerCall ∧
    step { live with input := [.command [0x09]] } = .refused (.reservedOpcode 0x09) := ⟨rfl, rfl⟩

theorem hyp_PackSfResult :
    (1 ≤ (1 : Byte).toNat ∧ (7 : Byte).toNat ≤ 7) ∧ (0 : Byte).toNat = 0 ∧ 8 ≤ (8 : Byte).toNat := by decide

theorem hyp_PackFfResult :
    (0x0FFF : Half).toNat = (0x0F : Byte).toNat * 256 + (0xFF : Byte).toNat ∧ 7 < (8 : Half).toNat ∧ (0x0FFF : Half).toNat ≤ 4095 ∧
    (7 : Half).toNat ≤ 7 ∧ 4096 ≤ (0x1000 : Half).toNat ∧ (0x1000 : Half).toNat = (0x10 : Byte).toNat * 256 + (0 : Byte).toNat := by decide

theorem hyp_UnpackCfResult : (0x1F : Byte).toNat / 16 ≠ 2 ∧ (0x2F : Byte).toNat / 16 = 2 := by decide

theorem hyp_CodecRoundTrips :
    (1 ≤ (7 : Byte).toNat ∧ (7 : Byte).toNat ≤ 7) ∧ (8 ≤ (8 : Half).toNat ∧ (0x0FFF : Half).toNat ≤ 4095) ∧ (15 : Byte).toNat ≤ 15 ∧
    (unpackSingle ⟨0x01, 0x3E, 0, 0, 0, 0, 0, 0⟩ = .ok (1, ⟨0x3E, 0, 0, 0, 0, 0, 0⟩) ∧ 1 ≤ (1 : Nibble).toNat ∧
      (⟨0x3E, 0, 0, 0, 0, 0, 0⟩ : Bytes7).toList = (⟨0x3E, 0, 0, 0, 0, 0, 0⟩ : Bytes7).toList.take 1 ++ List.replicate 6 0) ∧
    unpackFirst ⟨0x1F, 0xFF, 1, 2, 3, 4, 5, 6⟩ = .ok (4095, ⟨1, 2, 3, 4, 5, 6⟩) ∧
    unpackConsecutive ⟨0x2F, 1, 2, 3, 4, 5, 6, 7⟩ = .ok (15, ⟨1, 2, 3, 4, 5, 6, 7⟩) ∧
    unpackFlowControl ⟨0x32, 0, 0x0A, 0, 0, 0, 0, 0⟩ = .ok (2, 0, 0x0A) := by decide

theorem hyp_RegisterServiceResult :
    (let s := { live with regRemaining := 0 }
     s.live = true ∧ s.dispState = .idle ∧ regFind 0x10 s = none ∧ s.regRemaining = 0) ∧
    (let s := { pending [] with regRemaining := 0 }
     s.live = true ∧ s.dispState = .idle ∧ regFind 0x10 s ≠ none) ∧
    (let s := { live with regRemaining := 1 }
     s.live = true ∧ s.dispState = .idle ∧ regFind 0x10 s = none ∧ s.regRemaining ≠ 0) := by decide

theorem hyp_RegisterSubfunctionResult :
    (live.live = true ∧ live.dispState = .idle ∧ regFind 0x10 live = none) ∧
    (let s := { pending [] with cfg := { Config.vectors with maxSubfunctions := 0 } }
     s.live = true ∧ s.dispState = .idle ∧ regFind 0x10 s = some (service []) ∧ s.cfg.maxSubfunctions ≤ (service []).subs.length) ∧
    (let s := { pending [] with cfg := { Config.vectors with maxSubfunctions := 1 } }
     s.live = true ∧ s.dispState = .idle ∧ regFind 0x10 s = some (service []) ∧ (service []).subs.length < s.cfg.maxSubfunctions) := by decide

theorem hyp_FindServiceResult :
    live.live = true ∧ regFind 0x10 live = none ∧ (waitingService []).live = true ∧ regFind 0x10 (waitingService []) = some (service []) := by decide

theorem hyp_RemoveServiceResult :
    (pending []).live = true ∧ (pending []).dispState = .idle ∧ regFind 0x22 (pending []) = none ∧ regFind 0x10 (pending []) ≠ none := by decide

theorem hyp_RegistryChainsAreHidden :
    (∃ t, exec (.registerService 1 0 0 0) live = .next t) ∧ exec .init live = .fault .alreadyLive ∧
    exec (.reservedOpcode 0) live = .refused (.reservedOpcode 0) := ⟨⟨_, rfl⟩, rfl, rfl⟩

theorem hyp_BulkRegistrationKeepsEntries :
    (∃ u, exec (.registerService 1 0 0 0) live = .next u ∧ u.trace.getLast? = some (.result [0x00])) ∧
    (∃ u, exec (.registerSubfunction 1 0 0 0 0) live = .next u ∧ u.trace.getLast? = some (.result [0x06])) ∧
    exec (.registerService 1 0 0 0) (waitingService []) = .fault .commandDuringDispatch ∧
    exec (.registerSubfunction 1 0 0 0 0) off = .fault .notLive ∧
    (pending []).live = true ∧ (pending []).dispState = .idle ∧ regFind 0x10 (pending []) = some (service []) :=
  ⟨⟨_, rfl, rfl⟩, ⟨_, rfl, rfl⟩, rfl, rfl, rfl, rfl, rfl⟩

theorem hyp_SingleFrameIntake :
    live.live = true ∧ takesIn (.receiveFrame (Frame.single 8 Bytes7.zero)) ⟨(8 : Nibble).setWidth 8, 0, 0, 0, 0, 0, 0, 0⟩ ∧
    takesIn (.frameSf 7 Bytes7.zero) ⟨(7 : Nibble).setWidth 8, 0, 0, 0, 0, 0, 0, 0⟩ ∧ 7 < (8 : Nibble).toNat ∧ (7 : Nibble).toNat ≤ 7 ∧
    (waitingService []).busy = true ∧ live.busy = false :=
  ⟨rfl, .inl rfl, .inr (by decide), by decide, by decide, rfl, rfl⟩

theorem hyp_FirstFrameTurnedAway :
    (live.live = true ∧ takesIn (.receiveFrame (Frame.first 7 ⟨0, 0, 0, 0, 0, 0⟩)) (Frame.first 7 ⟨0, 0, 0, 0, 0, 0⟩) ∧ (7 : Len12).toNat < 8) ∧
    (takesIn (.frameFf 8 ⟨0, 0, 0, 0, 0, 0⟩) (Frame.first 8 ⟨0, 0, 0, 0, 0, 0⟩) ∧ 8 ≤ (8 : Len12).toNat) ∧
    (let s := waitingService []
     s.live = true ∧ s.reasmState ≠ .receiving ∧ s.busy = true) ∧
    (let s := { waitingService [] with reasmState := .receiving }
     s.live = true ∧ s.reasmState = .receiving ∧ s.busy = true) ∧
    (let s := { live with cfg := { Config.vectors with reasmCapacity := 7 } }
     s.live = true ∧ s.cfg.reasmCapacity < (8 : Len12).toNat ∧ s.reasmState ≠ .receiving ∧ s.busy = false) ∧
    (receiving.live = true ∧ receiving.reasmState = .receiving ∧ receiving.busy = false) :=
  ⟨⟨rfl, .inl rfl, by decide⟩, ⟨.inr (by decide), by decide⟩, by decide, by decide, by decide, by decide⟩

theorem hyp_FirstFrameStartsReassembly :
    live.live = true ∧ receiving.live = true ∧
    takesIn (.frameFf 4095 ⟨1, 2, 3, 4, 5, 6⟩) ⟨BitVec.ofNat 8 (0x10 + (4095 : Len12).toNat / 256), BitVec.ofNat 8 ((4095 : Len12).toNat % 256),
      1, 2, 3, 4, 5, 6⟩ ∧
    8 ≤ (8 : Len12).toNat ∧ (4095 : Len12).toNat ≤ live.cfg.reasmCapacity ∧ (live.busy = false ∧ live.reasmState ≠ .receiving) ∧
    (receiving.busy = false ∧ receiving.reasmState = .receiving) :=
  ⟨rfl, rfl, .inr (by decide), by decide, by decide, by decide, by decide⟩

theorem hyp_ConsecutiveFrameRejected :
    takesIn (.frameCf 15 Bytes7.zero) ⟨BitVec.ofNat 8 (0x20 + (15 : Nibble).toNat), 0, 0, 0, 0, 0, 0, 0⟩ ∧
    (live.live = true ∧ live.reasmState ≠ .receiving) ∧ (receiving.live = true ∧ receiving.reasmState = .receiving ∧ 15 ≠ receiving.reasmExpSn) :=
  ⟨.inr (by decide), by decide, by decide⟩

/-- A CF that goes on, and one that completes the message. -/
theorem hyp_ConsecutiveFrameAccepted :
    takesIn (.frameCf 1 Bytes7.zero) ⟨BitVec.ofNat 8 (0x20 + (1 : Nibble).toNat), 0, 0, 0, 0, 0, 0, 0⟩ ∧
    (receiving.live = true ∧ receiving.reasmState = .receiving ∧ 1 = receiving.reasmExpSn ∧ receiving.reasmRecv.toNat < receiving.reasmTotal.toNat ∧
      receiving.reasmTotal.toNat ≤ receiving.cfg.reasmCapacity) ∧
    receiving.reasmRecv.toNat + min 7 (receiving.reasmTotal.toNat - receiving.reasmRecv.toNat) ≠ receiving.reasmTotal.toNat ∧
    (let s := { receiving with reasmTotal := 8 }
     s.reasmRecv.toNat < s.reasmTotal.toNat ∧ s.reasmTotal.toNat ≤ s.cfg.reasmCapacity ∧
       s.reasmRecv.toNat + min 7 (s.reasmTotal.toNat - s.reasmRecv.toNat) = s.reasmTotal.toNat) :=
  ⟨.inr (by decide), by decide, by decide, by decide⟩

theorem hyp_OtherFramesDoNothing :
    live.live = true ∧ takesIn (.frameFc 0 0 0 Bytes5.zero) ⟨0x30, 0, 0, 0, 0, 0, 0, 0⟩ ∧ 3 ≤ (0x30 : Byte).toNat / 16 ∧
    takesIn (.frameReserved 4 0 Bytes7.zero) ⟨0x40, 0, 0, 0, 0, 0, 0, 0⟩ ∧ takesIn (.frameReservedHi 15 0 Bytes7.zero) ⟨0xF0, 0, 0, 0, 0, 0, 0, 0⟩ :=
  ⟨rfl, .inr (by decide), by decide, .inr (by decide), .inr (by decide)⟩

/-- R380: the end of a run: an outstanding handler call, a pending input and a refused configuration (R7) each deny it. That a run of no
command has ended is assumption 19. -/
theorem test_runEnded :
    State.reset.runEnded = true ∧ (waitingService []).runEnded = false ∧ { live with input := [.command [0x24]] }.runEnded = false ∧
    (State.resetWith { Config.vectors with keyWidth := 16 }).runEnded = false := by decide

/-- One transition of each clause, and of each way to IDLE. -/
theorem hyp_ReassemblyAndRequestTransitions :
    (∃ t, exec (.frameFf 8 ⟨1, 2, 3, 4, 5, 6⟩) live = .next t ∧ t.reasmState = .receiving ∧ live.reasmState ≠ .receiving) ∧
    (∃ t, exec (.frameCf 1 Bytes7.zero) { receiving with reasmTotal := 13 } = .next t ∧ t.reasmState = .complete ∧ t.active = .multi ∧
      receiving.reasmState ≠ .complete ∧ receiving.active ≠ .multi) ∧
    (∃ t, exec (.frameCf 2 Bytes7.zero) receiving = .next t ∧ t.reasmState = .idle ∧ receiving.reasmState ≠ .idle) ∧
    (∃ t, exec .dispatch { receiving with tick := 1000 } = .next t ∧ t.reasmState = .idle) ∧
    (∃ t, exec .dispatch { receiving with active := .single } = .next t ∧ t.reasmState = .idle) ∧
    (∃ t, exec (.handlerReturn 0xFF) { waitingService [] with reasmState := .receiving } = .next t ∧ t.reasmState = .idle) ∧
    (∃ t, exec (.frameFf 8 ⟨1, 2, 3, 4, 5, 6⟩) { waitingService [] with reasmState := .receiving } = .next t ∧ t.reasmState = .idle) ∧
    (∃ t, exec (.frameFf 8 ⟨1, 2, 3, 4, 5, 6⟩) { live with reasmState := .complete, cfg := { Config.vectors with reasmCapacity := 7 } } = .next t ∧
      t.reasmState = .idle) ∧
    (∃ t, exec (.frameSf 7 Bytes7.zero) live = .next t ∧ t.active = .single ∧ live.active ≠ .single) ∧
    (∃ t, exec .dispatch (pending []) = .next t ∧ t.active = .none ∧ (pending []).active ≠ .none) :=
  ⟨⟨_, rfl, by decide⟩, ⟨_, rfl, by decide⟩, ⟨_, rfl, by decide⟩, ⟨_, rfl, by decide⟩, ⟨_, rfl, by decide⟩, ⟨_, rfl, by decide⟩,
    ⟨_, rfl, by decide⟩, ⟨_, rfl, by decide⟩, ⟨_, rfl, by decide⟩, ⟨_, rfl, by decide⟩⟩

theorem hyp_TickAdvancesCounter :
    live.live = true ∧ (∃ t, exec .readState live = .next t) ∧ Instr.readState ≠ .delete ∧ (∀ now, Instr.readState ≠ .tick now) :=
  ⟨rfl, ⟨_, rfl⟩, nofun, fun _ => nofun⟩

/-- The timeouts at their boundaries: exactly elapsed, and one tick before. -/
theorem hyp_DispatchTimeoutsAndNothingPending :
    (let s := { receiving with tick := 5000, ncsMark := 4000 }
     s.live = true ∧ s.dispState = .idle ∧
       (s.ncsActive = true ∧ s.cfg.ncsTimeout.toNat ≤ (s.tick.toNat + 2 ^ 32 - s.ncsMark.toNat) % 2 ^ 32) ∧
       s.cfg.sessionTimeout.toNat ≤ (s.tick.toNat + 2 ^ 32 - s.lastActivity.toNat) % 2 ^ 32) ∧
    (let s := { live with tick := 2, lastActivity := 0xFFFFEC7B }
     s.live = true ∧ s.dispState = .idle ∧
       (s.tick.toNat + 2 ^ 32 - s.lastActivity.toNat) % 2 ^ 32 < s.cfg.sessionTimeout.toNat ∧ s.active = .none) ∧
    (let s := { receiving with tick := 4999, ncsMark := 3999, active := .single }
     s.live = true ∧ s.dispState = .idle ∧
       (s.ncsActive = true ∧ s.cfg.ncsTimeout.toNat ≤ (s.tick.toNat + 2 ^ 32 - s.ncsMark.toNat) % 2 ^ 32) ∧
       (s.tick.toNat + 2 ^ 32 - s.lastActivity.toNat) % 2 ^ 32 < s.cfg.sessionTimeout.toNat ∧ s.active ≠ .none) := by decide

theorem hyp_DispatchUnregisteredService :
    let s := { live with sid := 0x99, active := .single }
    s.live = true ∧ s.dispState = .idle ∧ sessionExpired s = false ∧ ncsExpired s = false ∧ s.active ≠ .none ∧ regFind s.sid s = none := by decide

theorem hyp_DispatchCallsServiceHandler :
    let s := pending []
    s.live = true ∧ s.dispState = .idle ∧ sessionExpired s = false ∧ ncsExpired s = false ∧ s.active ≠ .none ∧
      regFind s.sid s = some (service []) ∧ (service []).hasHandler = true := by decide

theorem hyp_DispatchSubfunctionPhase :
    let e : ServiceEntry := ⟨false, 0, 0, [⟨3, true, 4, 0⟩, ⟨5, false, 0, 0⟩]⟩
    let s := { pending [] with reg := [(0x10, e)] }
    s.live = true ∧ s.dispState = .idle ∧ sessionExpired s = false ∧ ncsExpired s = false ∧ s.active ≠ .none ∧
      regFind s.sid s = some e ∧ e.hasHandler = false ∧ findSub 3 e.subs = some ⟨3, true, 4, 0⟩ ∧
      findSub 5 e.subs = some ⟨5, false, 0, 0⟩ ∧ findSub 0 e.subs = none := by decide

theorem hyp_ServiceHandlerReturn :
    let s := waitingService [⟨3, true, 4, 0⟩, ⟨5, false, 0, 0⟩]
    s.live = true ∧ s.dispState = .waitService ∧ regFind s.dispSid s = some (service [⟨3, true, 4, 0⟩, ⟨5, false, 0, 0⟩]) ∧
      findSub 3 (service [⟨3, true, 4, 0⟩, ⟨5, false, 0, 0⟩]).subs = some ⟨3, true, 4, 0⟩ ∧
      findSub 5 (service [⟨3, true, 4, 0⟩, ⟨5, false, 0, 0⟩]).subs = some ⟨5, false, 0, 0⟩ ∧
      findSub 0 (service [⟨3, true, 4, 0⟩, ⟨5, false, 0, 0⟩]).subs = none := by decide

theorem hyp_SubfunctionHandlerReturn :
    ({ waitingService [] with dispState := .waitSub } : State).live = true ∧
    ({ waitingService [] with dispState := .waitSub } : State).dispState = .waitSub := ⟨rfl, rfl⟩

theorem hyp_RespondPositiveResult :
    (live.live = true ∧ live.cfg.txPresent = true ∧ live.txAnswers = .ok :: [.ok]) ∧
    (let s := { live with cfg := { Config.vectors with txPresent := false } }
     s.live = true ∧ s.cfg.txPresent = false) := by decide

theorem hyp_RespondNegativeResult :
    (live.live = true ∧ live.cfg.txPresent = true) ∧
    (let s := { live with cfg := { Config.vectors with txPresent := false } }
     s.live = true ∧ s.cfg.txPresent = false) := by decide

theorem hyp_IdsStableDuringHandlerCall :
    (waitingService []).live = true ∧ (waitingService []).busy = true ∧ (waitingService []).dispState ≠ .idle ∧
    (∃ t, exec (.frameSf 2 ⟨0x3E, 0, 0, 0, 0, 0, 0⟩) (waitingService []) = .next t) := ⟨rfl, rfl, by decide, ⟨_, rfl⟩⟩

theorem hyp_OnlyThreeKindsTransmitted : ∃ t, exec .respondPositive live = .next t := ⟨_, rfl⟩

theorem hyp_TransmitAnswersChangeNoState :
    (∃ t, exec .respondPositive live = .next t) ∧ exec .init live = .fault .alreadyLive ∧
    exec (.reservedOpcode 0) live = .refused (.reservedOpcode 0) := ⟨⟨_, rfl⟩, rfl, rfl⟩

theorem hyp_InitLeavesResetState :
    live.live = true ∧ (off.live = false ∧ off.cfg.bucketCount ≠ 0) ∧
    (let s := { live with live := false, cfg := { Config.vectors with bucketCount := 0 } }
     s.live = false ∧ s.cfg.bucketCount = 0) :=
  ⟨rfl, ⟨rfl, by decide⟩, by decide⟩

theorem hyp_DeleteThenInitIsFresh :
    live.live = true ∧ live.dispState = .idle ∧ isEngineCommand .readState = true ∧ Instr.readState ≠ .init ∧ live.cfg.bucketCount ≠ 0 := by decide

theorem hyp_ReadStateResult :
    receiving.live = true ∧ (1 : Byte) = (match receiving.reasmState with | .idle => 0 | .receiving => 1 | .complete => 2) ∧
    (0 : Byte) = (match receiving.active with | .none => 0 | .single => 1 | .multi => 2) ∧
    (1 : Byte) = (match (waitingService []).dispState with | .idle => 0 | .waitService => 1 | .waitSub => 2) := ⟨rfl, rfl, rfl, rfl⟩

theorem hyp_ReadBufResult :
    live.live = true ∧ live.cfg.reasmCapacity ≤ (0x1000 : Half).toNat ∧ (0x0FFF : Half).toNat < live.cfg.reasmCapacity := by decide

theorem hyp_ResetState : State.reset = State.resetWith Config.vectors := rfl

theorem hyp_NotLiveFaults : off.live = false ∧ isEngineCommand (.tick 0) = true ∧ Instr.tick 0 ≠ .init := ⟨rfl, rfl, nofun⟩

theorem hyp_AdmissionDuringHandlerCall :
    (waitingService []).live = true ∧ needsIdle .dispatch = true ∧ (waitingService []).dispState ≠ .idle ∧ live.dispState = .idle ∧
    needsIdle .readState = false ∧ exec (.handlerReturn 0) live = .fault .noHandlerCall ∧ exec .init live = .fault .alreadyLive :=
  ⟨rfl, rfl, by decide, rfl, rfl, rfl, rfl⟩

theorem hyp_FailedStatusWritesNothing :
    (∃ t, exec (.findService 1) live = .next t ∧ t.trace = [] ++ [.result (0x06 :: [0, 0, 0, 0, 0, 0, 0])]) ∧ (0x06 : Byte) ≠ 0x00 :=
  ⟨⟨_, rfl, rfl⟩, by decide⟩

theorem hyp_ReadsHaveNoSideEffects :
    isRead .readState = true ∧ isRead (.packFc 0 0 0) = true ∧ isCodec (.packFc 0 0 0) = true ∧ live.live = true ∧
    (∃ t, exec .readState live = .next t) ∧ (∃ t, exec (.respondNegative 0x11) live = .next t) := ⟨rfl, rfl, rfl, rfl, ⟨_, rfl⟩, ⟨_, rfl⟩⟩

/-- A call from DISPATCH, and one from the HANDLER_RETURN of a service handler. -/
theorem hyp_HandlerCallsNeverNest :
    (∃ t, exec .dispatch (pending []) = .next t ∧ t.trace = [] ++ [.hcall .service 0x10 0x03 1 0, .result [0x00]]) ∧
    (∃ t, exec (.handlerReturn 0xFF) (waitingService [⟨3, true, 4, 0⟩]) = .next t ∧
      t.trace = [] ++ [.hcall .subfunction 0x10 0x03 4 0, .result [0x00]]) := ⟨⟨_, rfl, rfl⟩, ⟨_, rfl, by decide⟩⟩

theorem hyp_RegistryFixedDuringDispatch :
    (∃ t, exec (.handlerReturn 0xFF) (waitingService []) = .next t) ∧ (waitingService []).live = true ∧ (waitingService []).dispState ≠ .idle ∧
    needsIdle (.handlerReturn 0xFF) = false ∧ Instr.handlerReturn 0xFF ≠ .init ∧ (∃ t, exec .dispatch (pending []) = .next t) :=
  ⟨⟨_, rfl⟩, rfl, by decide, rfl, nofun, ⟨_, rfl⟩⟩

theorem hyp_ConfigurationIsFixed : ∃ t, exec .delete live = .next t := ⟨_, rfl⟩

theorem hyp_BitOrderChangesNothing :
    (∃ t, exec (.frameFf 8 ⟨1, 2, 3, 4, 5, 6⟩) live = .next t) ∧ exec .init live = .fault .alreadyLive ∧
    exec (.reservedOpcode 0) live = .refused (.reservedOpcode 0) := ⟨⟨_, rfl⟩, rfl, rfl⟩

/-- The chains of the vectors' configuration with 0x10 registered: the key is in its bucket, and every other chain is empty. -/
theorem pending_chains (b : Nat) (chain : List Byte) (h : ([0x10] :: List.replicate 15 [])[b]? = some chain) :
    (b = 0 ∧ chain = [0x10]) ∨ (0 < b ∧ chain = []) := by
  cases b with
  | zero => exact .inl ⟨rfl, by simpa using h.symm⟩
  | succ b =>
    refine .inr ⟨by omega, ?_⟩
    simp only [List.getElem?_cons_succ, List.getElem?_replicate] at h
    split at h
    · simpa using h.symm
    · simp at h

/-- A state of the invariant in the middle of a run (a handler call outstanding, a reassembly in progress), and a step from it. -/
theorem hyp_StepKeepsInvariant :
    let s := { waitingService [] with
      reasmState := .receiving, reasmTotal := 20, reasmRecv := 6, reasmExpSn := 1, reasmBuf := receiving.reasmBuf, ncsActive := true
      regChains := [0x10] :: List.replicate 15 [], input := [.wire ⟨0x21, 1, 2, 3, 4, 5, 6, 7⟩] }
    s.Inv ∧ ∃ t, step s = .next t := by
  refine ⟨⟨⟨rfl, rfl⟩, rfl, nofun, fun _ => ⟨⟨by decide, by decide, by decide, by decide, 0, by decide⟩, ⟨by decide, rfl, ?_, rfl, ?_⟩, ?_⟩⟩, ⟨_, rfl⟩⟩
  · intro r hr
    rw [List.mem_singleton.1 hr]
    decide
  · intro b chain h
    have find : ∀ k : Byte, (regFind k (waitingService [])).isSome = decide (k = 0x10) := by decide
    have bucket : bucketOf 16 0x10 = 0 := by decide
    have goal : chain.Nodup ∧ ∀ k : Byte, k ∈ chain ↔ (regFind k (waitingService [])).isSome = true ∧ bucketOf 16 k = b := by
      rcases pending_chains b chain h with ⟨rfl, rfl⟩ | ⟨hb, rfl⟩
      · refine ⟨by decide, fun k => ?_⟩
        rw [find, List.mem_singleton, decide_eq_true_eq]
        exact ⟨fun e => ⟨e, e ▸ bucket⟩, fun e => e.1⟩
      · refine ⟨by decide, fun k => ?_⟩
        rw [find, decide_eq_true_eq]
        refine ⟨nofun, fun e => ?_⟩
        have := e.2
        rw [e.1, bucket] at this
        omega
    exact goal
  · exact ⟨by decide, fun _ => ⟨rfl, rfl⟩⟩

theorem hyp_InvariantHoldsAtReset : 0 < ({ Config.vectors with bucketCount := 1 } : Config).bucketCount := by decide

/-- The invariant's premise, in the state right after reset under one bucket and no storage. -/
theorem hyp_ModelFaultsAreUnreachable : (State.resetWith { Config.vectors with bucketCount := 1, maxServices := 0 }).Inv := by
  refine ⟨⟨rfl, rfl⟩, rfl, nofun, fun _ => ⟨⟨by decide, rfl, rfl, rfl, rfl⟩, ⟨by decide, rfl, nofun, rfl, ?_⟩, ⟨by decide, fun h => absurd rfl h⟩⟩⟩
  intro b chain h
  cases b with
  | zero =>
    have e : chain = [] := by simpa [State.resetWith] using h.symm
    subst e
    exact ⟨List.nodup_nil, fun k => ⟨nofun, fun e => nomatch e.1⟩⟩
  | succ b => simp [State.resetWith] at h

end Sys2Proof.Tests
end

section
/-! PROOFS. O9: a frame on the wire runs as RECEIVE_FRAME of it (spec 00_scope.md R3, 42_receive.md R205). The layout of a kind rebuilds the frame
that was decoded as that kind, so each wire row is the intake of the very frame that arrived. -/

namespace Sys2Proof

/-! ### A frame is the layout of its own fields -/

/-- R82. -/
theorem single_self {f : Frame} (h : f.typeNibble = 0) : Frame.single f.kindNibble f.tail7 = f := by
  rw [Frame.single, ← h, ofPci_self]

/-- R84. -/
theorem consecutive_self {f : Frame} (h : f.typeNibble = 2) : Frame.consecutive f.kindNibble f.tail7 = f := by
  rw [Frame.consecutive, ← h, ofPci_self]

/-- R83: the 12-bit total gives back the kind nibble and `F[1]`. -/
theorem first_self {f : Frame} (h : f.typeNibble = 1) : Frame.first f.total f.tail6 = f := by
  have hi : f.total.extractLsb' 8 4 = f.kindNibble := extract_high f.kindNibble f.f1
  have lo : f.total.extractLsb' 0 8 = f.f1 := extract_low f.kindNibble f.f1
  rw [Frame.first, hi, lo, ← h]
  exact ofPci_self f

/-! ### The wire row of a frame, by its type nibble (R81) -/

theorem decodeFrame_single {f : Frame} (h : f.typeNibble = 0) : decodeFrame f = .frameSf f.kindNibble f.tail7 := by
  simp [decodeFrame, h]

theorem decodeFrame_first {f : Frame} (h : f.typeNibble = 1) : decodeFrame f = .frameFf f.total f.tail6 := by
  simp [decodeFrame, h]

theorem decodeFrame_consecutive {f : Frame} (h : f.typeNibble = 2) : decodeFrame f = .frameCf f.kindNibble f.tail7 := by
  simp [decodeFrame, h]

theorem decodeFrame_flowControl {f : Frame} (h : f.typeNibble = 3) :
    decodeFrame f = .frameFc f.kindNibble f.f1 f.f2 f.tail5 := by
  simp [decodeFrame, h]

/-- R81's rows are exhaustive: one of the four kinds, or a reserved type nibble. -/
theorem typeNibble_cases (f : Frame) :
    f.typeNibble = 0 ∨ f.typeNibble = 1 ∨ f.typeNibble = 2 ∨ f.typeNibble = 3 ∨ 4 ≤ f.typeNibble.toNat := by
  bv_omega

namespace Machine

/-! ### The intake of a frame, by its type nibble (R205) -/

theorem receive_single {f : Frame} (h : f.typeNibble = 0) (s : State) : receive f s = .ok (intakeSingle f s) := by
  simp [receive, h]

theorem receive_first {f : Frame} (h : f.typeNibble = 1) (s : State) : receive f s = .ok (intakeFirst f s) := by
  simp [receive, h]

theorem receive_consecutive {f : Frame} (h : f.typeNibble = 2) (s : State) : receive f s = intakeConsecutive f s := by
  simp [receive, h]

/-- R214, R215: flow control and the reserved type nibbles do nothing. -/
theorem receive_other {f : Frame} (h : 3 ≤ f.typeNibble.toNat) (s : State) : receive f s = .ok s := by
  unfold receive
  split
  case h_4 => rfl
  all_goals omega

/-! ### The wire rows run the intake -/

/-- R88, R215: both reserved rows complete with nothing done. -/
theorem exec_decodeFrame_reserved {f : Frame} (h : 4 ≤ f.typeNibble.toNat) (s : State) :
    exec (decodeFrame f) s = whenLive s (completeOk (.ok s)) := by
  have row := decodeFrame_reserved f.typeNibble f.kindNibble f.tail7 h
  rw [ofPci_self] at row
  rw [row]
  split <;> rfl

/-- R205: whatever the kind of the frame, its wire row is admitted and completed as its intake is. -/
theorem exec_decodeFrame (f : Frame) (s : State) : exec (decodeFrame f) s = whenLive s (completeOk (receive f s)) := by
  rcases typeNibble_cases f with h | h | h | h | h
  · rw [decodeFrame_single h, receive_single h, exec, execFrameSf, single_self h]
  · rw [decodeFrame_first h, receive_first h, exec, execFrameFf, first_self h]
  · rw [decodeFrame_consecutive h, receive_consecutive h, exec, execFrameCf, consecutive_self h]
  · rw [decodeFrame_flowControl h, receive_other (by simp [h]), exec, execFrameFc]
  · rw [exec_decodeFrame_reserved h, receive_other (by omega)]

/-- Settles O9: both sides are the intake of the frame, admitted when the block is live. -/
theorem wireFrameIsReceiveFrame : Obligations.WireFrameIsReceiveFrame := by
  intro f s
  rw [exec_decodeFrame, exec, execReceiveFrame]

end Machine

end Sys2Proof
end

section
/-! PROOFS. O7, O8: what a step does when it runs no instruction, and that a stop is final (spec 10_state.md R42, 30_encoding.md R94,
60_exceptions.md R330, R333, R349). -/

namespace Sys2Proof.Machine

/-! ### When a run is stopped -/

theorem stopped_of_fault {s : State} {k : Fault} (h : s.fault = some k) : stopped s = some (.fault k) := by
  simp [stopped, h]

theorem stopped_of_refused {s : State} (hf : s.fault = none) (h : s.refused = true) : stopped s = some (.refused .alreadyRefused) := by
  simp [stopped, hf, h]

theorem stopped_of_illFormed {s : State} (hf : s.fault = none) (hr : s.refused = false) (h : s.cfg.wf = false) :
    stopped s = some (.refused .illFormedConfig) := by
  simp [stopped, hf, hr, h]

theorem stopped_eq_none {s : State} (hf : s.fault = none) (hr : s.refused = false) (h : s.cfg.wf = true) : stopped s = none := by
  simp [stopped, hf, hr, h]

/-- R330, R333: a stopped run has faulted or been refused; it never goes on. -/
theorem stopped_ne_next (s t : State) : stopped s ≠ some (.next t) := by
  unfold stopped
  split
  · nofun
  · split
    · nofun
    · split <;> nofun

/-! ### The step, by what it meets -/

theorem step_of_stopped {s : State} {r : Result} (h : stopped s = some r) : step s = r := by
  simp [step, h]

theorem step_of_no_input {s : State} (h : stopped s = none) (hi : s.input = []) : step s = .next s := by
  simp [step, h, hi]

theorem step_of_malformed {s : State} {x : Input} {rest : List Input} {e : DecodeError} (h : stopped s = none)
    (hi : s.input = x :: rest) (hx : decode x = .error e) : step s = .refused (.malformedPacket e) := by
  simp [step, h, hi, hx]

theorem step_of_decoded {s : State} {x : Input} {rest : List Input} {i : Instr} (h : stopped s = none)
    (hi : s.input = x :: rest) (hx : decode x = .ok i) : step s = exec i (takeInput s) := by
  simp [step, h, hi, hx]

/-- A step that completes was idle, or ran an instruction on the state that has taken its input. -/
theorem step_next {s t : State} (h : step s = .next t) : t = s ∨ ∃ i, exec i (takeInput s) = .next t := by
  cases hs : stopped s with
  | some r =>
    rw [step_of_stopped hs] at h
    exact absurd (h ▸ hs) (stopped_ne_next s t)
  | none =>
    cases hi : s.input with
    | nil =>
      rw [step_of_no_input hs hi] at h
      exact .inl (by simpa using h.symm)
    | cons x rest =>
      cases hx : decode x with
      | error e => simp [step_of_malformed hs hi hx] at h
      | ok i => exact .inr ⟨i, step_of_decoded hs hi hx ▸ h⟩

/-- Settles O7: each clause is one row of the step's own case distinction. -/
theorem stepWithoutInstruction : Obligations.StepWithoutInstruction :=
  ⟨fun _ _ h => step_of_stopped (stopped_of_fault h),
    fun _ hf h => step_of_stopped (stopped_of_refused hf h),
    fun _ hf hr h => step_of_stopped (stopped_of_illFormed hf hr h),
    fun _ hf hr h hi => step_of_no_input (stopped_eq_none hf hr h) hi,
    fun _ _ _ _ hf hr h hi hx => step_of_malformed (stopped_eq_none hf hr h) hi hx⟩

/-! ### The record of a stop -/

theorem settle_of_fault {s : State} {k : Fault} (h : step s = .fault k) : s.settle = { s with fault := some k } := by
  simp [State.settle, h]

theorem settle_of_refused {s : State} {r : Refusal} (h : step s = .refused r) : s.settle = { s with refused := true } := by
  simp [State.settle, h]

/-- R42: a step that is refused finds no recorded fault, for that fault would be raised again. -/
theorem fault_eq_none_of_refused {s : State} {r : Refusal} (h : step s = .refused r) : s.fault = none := by
  cases hf : s.fault with
  | none => rfl
  | some k => simp [step_of_stopped (stopped_of_fault hf)] at h

/-- Settles O8: the record alone makes the next step stop in the same way, and recording it again changes nothing. -/
theorem faultsAndRefusalsAreFinal : Obligations.FaultsAndRefusalsAreFinal := by
  refine fun s => ⟨fun k h => ?_, fun r h => ?_⟩
  · have again : step { s with fault := some k } = .fault k := step_of_stopped (stopped_of_fault rfl)
    rw [settle_of_fault h]
    exact ⟨rfl, again, settle_of_fault again⟩
  · have again : step { s with refused := true } = .refused .alreadyRefused :=
      have noFault : s.fault = none := fault_eq_none_of_refused h
      step_of_stopped (stopped_of_refused noFault rfl)
    rw [settle_of_refused h]
    exact ⟨rfl, ⟨_, again⟩, settle_of_refused again⟩

end Sys2Proof.Machine
end

section
/-! PROOFS. O58, O59, O49: the invariant of the reachable states holds at reset and at power-on and every step keeps it, and what the reset leaves
(spec 10_state.md R35, R37 to R41, R46, R51; 70_reset_and_hazards.md R360). -/

namespace Sys2Proof.Machine

/-! ### A fresh engine and a dead one -/

/-- R161: empty chains hold the keys of an empty registry. -/
theorem chainsInv_replicate {s : State} (hr : s.reg = []) (hc : s.regChains = List.replicate s.cfg.bucketCount []) : chainsInv s := by
  refine ⟨by simp [hc], fun b chain h => ?_⟩
  have nil : chain = [] := by
    rw [hc] at h
    exact List.eq_of_mem_replicate (List.mem_of_getElem? h)
  have none : ∀ k, regFind k s = none := fun k => by simp [regFind, hr, findRow]
  simp [nil, none]

theorem inv_initialise {s : State} (hb : s.cfg.bucketCount ≠ 0) : (initialise s).Inv := by
  refine ⟨⟨rfl, rfl⟩, rfl, nofun, fun _ => ⟨⟨by simp, rfl, rfl, rfl, rfl⟩, ?_, by simp [dispatchInv]⟩⟩
  exact ⟨Nat.pos_of_ne_zero hb, by simp, by simp, chainsInv_replicate rfl rfl⟩

/-- While the engine is not live only the two canonical forms and the idle dispatcher are asked for (R46). -/
theorem inv_of_not_live {s : State} (hl : s.live = false) (hb : bufferInv s) (hr : rowsRise rowKey s.reg = true)
    (hd : s.dispState = .idle) : s.Inv :=
  ⟨hb, hr, fun _ => hd, fun h => by simp [hl] at h⟩

theorem inv_tearDown (s : State) : (tearDown s).Inv := inv_of_not_live rfl (freeBuffer_wf _ _) rfl rfl

theorem rowsRise_freeRegistry (d m n : Nat) : rowsRise rowKey (freeRegistry d m n) = true := by
  induction n with
  | zero => rfl
  | succ n ih => exact rowsRise_putRow rowKey _ ih

/-! ### The return of a handler -/

/-- R247, R249: the call's end leaves an idle dispatcher that is not busy. -/
theorem inv_endCall {s : State} (h : s.Inv) (hl : s.live = true) : (endCall s).Inv :=
  inv_disp h rfl rfl rfl rfl rfl rfl rfl rfl rfl rfl rfl hl (by simp [dispatchInv])

theorem State.Inv.dispatch {s : State} (h : s.Inv) (hl : s.live = true) : dispatchInv s := by
  obtain ⟨_, _, _, engine⟩ := h
  obtain ⟨_, _, dispatch⟩ := engine hl
  exact dispatch

theorem inv_serviceReturned {s u : State} {c : Byte} (h : s.Inv) (hl : s.live = true) (hd : s.dispState = .waitService)
    (hu : serviceReturned c s = .ok u) : u.Inv := by
  obtain ⟨_, latched⟩ := h.dispatch hl
  obtain ⟨hs, _⟩ := latched (by simp [hd])
  exact inv_sub (inv_endCall (inv_translate h c) (by simpa)) (by simpa) rfl (by simpa) hu

theorem inv_subfunctionReturned {s : State} (h : s.Inv) (hl : s.live = true) (c : Byte) : (subfunctionReturned c s).Inv :=
  inv_finish (inv_endCall (inv_translate h c) (by simpa)) (by simpa) rfl

/-! ### Every command and every step -/

/-- Each way in which a command completes keeps the invariant. -/
theorem inv_ran {i : Instr} {s u : State} {p : List Byte} (h : s.Inv) (ran : Ran i s p u) : u.Inv := by
  cases ran with
  | report => exact h
  | respondNegative => exact inv_respondNegative h _
  | respondPositive => exact inv_respondPositive h
  | single hl => exact inv_intakeSingle h hl _
  | first hl => exact inv_intakeFirst h hl _
  | consecutive hl _ _ hu => exact inv_intakeConsecutive h hl hu
  | tick => apply inv_congr h <;> rfl
  | dispatch hl hd hu => exact inv_dispatch h hl hd hu
  | serviceReturned hl hd hu => exact inv_serviceReturned h hl hd hu
  | subfunctionReturned hl => exact inv_subfunctionReturned h hl _
  | registerService hl hd => exact inv_regInsert h hl hd _ _ (Nat.zero_le _)
  | registerSubfunction hl hd => exact inv_appendSub h hl hd _ _
  | removeService hl hd => exact inv_regRemove h hl hd _
  | delete => exact inv_tearDown _
  | init _ hb => exact inv_initialise hb

theorem inv_exec {i : Instr} {s t : State} (h : s.Inv) (ht : exec i s = .next t) : t.Inv := by
  obtain ⟨p, u, ran, rfl⟩ := exec_ran ht
  exact inv_emit (inv_ran h ran) _

/-- Settles O58: an idle step changes nothing, any other is a command on the state that has taken its input. -/
theorem stepKeepsInvariant : Obligations.StepKeepsInvariant := by
  intro s t h hs
  rcases step_next hs with rfl | ⟨i, ht⟩
  · exact h
  · exact inv_exec (inv_takeInput h) ht

/-! ### Reset and power-on -/

/-- R360: INIT on the reset state leaves it as it is. -/
theorem initialise_resetWith (c : Config) : initialise (State.resetWith c) = State.resetWith c := rfl

theorem inv_resetWith {c : Config} (hb : 0 < c.bucketCount) : (State.resetWith c).Inv :=
  initialise_resetWith c ▸ inv_initialise hb.ne'

theorem inv_powerOn (c : Config) : (State.powerOn c).Inv :=
  inv_of_not_live rfl (freeBuffer_wf _ _) (rowsRise_freeRegistry _ _ _) rfl

/-- Settles O59: a reset state is a fresh engine, and at power-on the engine is not live. -/
theorem invariantHoldsAtReset : Obligations.InvariantHoldsAtReset :=
  ⟨inv_resetWith (by decide), fun _ => inv_resetWith, inv_powerOn⟩

/-- Settles O49: an empty buffer reads 0 and an empty registry has no entry; every other field is written out in `State.resetWith`. -/
theorem resetState : Obligations.ResetState := by
  refine ⟨?_, rfl, by decide⟩
  rintro c s rfl
  have buffer : ∀ o, Memory.read (State.resetWith c).reasmBuf o = 0 := fun _ => rfl
  have registry : ∀ k, regFind k (State.resetWith c) = none := fun _ => rfl
  exact ⟨rfl, rfl, rfl, rfl, rfl, rfl, rfl, rfl, rfl, rfl, rfl, rfl, rfl, rfl, buffer, rfl, rfl, registry,
    rfl, rfl, rfl, rfl, rfl, rfl, rfl⟩

end Sys2Proof.Machine
end

section
/-! PROOFS. O55, O56: which commands write the registry, and what no command writes (spec 10_state.md R37, R42, R44; 20_memory.md R71;
60_exceptions.md R332). -/

namespace Sys2Proof.Machine

/-! ### Two frames -/

/-- R42, R44: the configuration, the records of a stop and the queue of inputs are as they were. -/
structure KeepsRecord (s t : State) : Prop where
  cfg : t.cfg = s.cfg
  fault : t.fault = s.fault
  refused : t.refused = s.refused
  input : t.input = s.input

/-- R37 to R39: so are the registry, its capacity and its chains. -/
structure KeepsRegistry (s t : State) : Prop extends KeepsRecord s t where
  reg : t.reg = s.reg
  regRemaining : t.regRemaining = s.regRemaining
  regChains : t.regChains = s.regChains

theorem keepsRecord_iff {s t : State} :
    KeepsRecord s t ↔ t.cfg = s.cfg ∧ t.fault = s.fault ∧ t.refused = s.refused ∧ t.input = s.input :=
  ⟨fun ⟨hc, hf, hr, hi⟩ => ⟨hc, hf, hr, hi⟩, fun ⟨hc, hf, hr, hi⟩ => ⟨hc, hf, hr, hi⟩⟩

theorem keepsRegistry_iff {s t : State} :
    KeepsRegistry s t ↔ KeepsRecord s t ∧ t.reg = s.reg ∧ t.regRemaining = s.regRemaining ∧ t.regChains = s.regChains :=
  ⟨fun ⟨h, hr, hm, hc⟩ => ⟨h, hr, hm, hc⟩, fun ⟨h, hr, hm, hc⟩ => ⟨h, hr, hm, hc⟩⟩

theorem KeepsRegistry.trans {s t u : State} (h : KeepsRegistry s t) (h' : KeepsRegistry t u) : KeepsRegistry s u := by
  simp [keepsRegistry_iff, keepsRecord_iff, h.cfg, h.fault, h.refused, h.input, h.reg, h.regRemaining, h.regChains,
    h'.cfg, h'.fault, h'.refused, h'.input, h'.reg, h'.regRemaining, h'.regChains]

theorem keepsRegistry_self (s : State) : KeepsRegistry s s := by simp [keepsRegistry_iff, keepsRecord_iff]

theorem keepsRegistry_emit (e : Event) (s : State) : KeepsRegistry s (emit e s) := by simp [keepsRegistry_iff, keepsRecord_iff]

/-! ### Intake -/

theorem keepsRegistry_respondNegative (c : Byte) (s : State) : KeepsRegistry s (respondNegative c s).2 := by
  simp [keepsRegistry_iff, keepsRecord_iff]

theorem keepsRegistry_intakeSingle (f : Frame) (s : State) : KeepsRegistry s (intakeSingle f s) := by
  rcases intakeSingle_cases f s with ⟨_, e⟩ | ⟨_, e⟩ | ⟨_, _, _, _, e⟩
  · rw [e]; exact keepsRegistry_self s
  · exact e ▸ keepsRegistry_respondNegative _ s
  · simp [e, keepsRegistry_iff, keepsRecord_iff]

theorem keepsRegistry_startReassembly (total : Len12) (p : Bytes6) (s : State) : KeepsRegistry s (startReassembly total p s) := by
  rcases startReassembly_cases total p s with ⟨_, e⟩ | ⟨_, e⟩ <;> simp [e, keepsRegistry_iff, keepsRecord_iff]

theorem keepsRegistry_intakeFirst (f : Frame) (s : State) : KeepsRegistry s (intakeFirst f s) := by
  have running : KeepsRegistry s (abortRunning s) := by simp [keepsRegistry_iff, keepsRecord_iff]
  rcases intakeFirst_cases f s with ⟨_, e⟩ | ⟨_, _, _, ⟨_, e⟩ | ⟨_, e⟩⟩
  · rw [e]; exact keepsRegistry_self s
  · exact e ▸ running.trans (keepsRegistry_respondNegative _ _)
  · exact e ▸ running.trans (keepsRegistry_startReassembly _ _ _)

theorem keepsRegistry_acceptConsecutive (p : Bytes7) (n : Nat) (s : State) : KeepsRegistry s (acceptConsecutive p n s) := by
  dsimp only [acceptConsecutive]
  split
  · simp [keepsRegistry_iff, keepsRecord_iff]
  · split <;> simp [keepsRegistry_iff, keepsRecord_iff]

theorem keepsRegistry_intakeConsecutive {f : Frame} {s u : State} (h : intakeConsecutive f s = .ok u) : KeepsRegistry s u := by
  have marked : KeepsRegistry s { s with lastActivity := s.tick } := by simp [keepsRegistry_iff, keepsRecord_iff]
  rcases intakeConsecutive_cases h with rfl | ⟨_, ⟨_, rfl⟩ | ⟨_, _, _, rfl⟩⟩
  · exact keepsRegistry_self _
  · simp [keepsRegistry_iff, keepsRecord_iff]
  · exact marked.trans (keepsRegistry_acceptConsecutive _ _ _)

/-! ### Dispatch -/

theorem keepsRegistry_subfunctionPhase {s u : State} (h : subfunctionPhase s = .ok u) : KeepsRegistry s u := by
  obtain ⟨_, _, ⟨_, rfl⟩ | ⟨_, _, ⟨_, rfl⟩ | ⟨_, rfl⟩⟩⟩ := subfunctionPhase_cases h <;>
    simp [keepsRegistry_iff, keepsRecord_iff]

theorem keepsRegistry_lookupRequest {s u : State} (h : lookupRequest s = .ok u) : KeepsRegistry s u := by
  have latched : KeepsRegistry s (latchDispatched s) := by simp [keepsRegistry_iff, keepsRecord_iff]
  rcases lookupRequest_cases h with ⟨_, rfl⟩ | ⟨_, _, ⟨_, rfl⟩ | ⟨_, hu⟩⟩
  · simp [keepsRegistry_iff, keepsRecord_iff]
  · simp [keepsRegistry_iff, keepsRecord_iff]
  · exact latched.trans (keepsRegistry_subfunctionPhase hu)

theorem keepsRegistry_dispatchRequest {s u : State} (h : dispatchRequest s = .ok u) : KeepsRegistry s u := by
  have timed : KeepsRegistry s (timeouts s) := by simp [keepsRegistry_iff, keepsRecord_iff]
  have taken : KeepsRegistry s (takeRequest (timeouts s)) := by simp [keepsRegistry_iff, keepsRecord_iff]
  rcases dispatchRequest_cases h with ⟨_, rfl⟩ | ⟨_, _, rfl⟩ | ⟨_, _, hu⟩
  · exact timed
  · exact timed
  · exact taken.trans (keepsRegistry_lookupRequest hu)

theorem keepsRegistry_serviceReturned {c : Byte} {s u : State} (h : serviceReturned c s = .ok u) : KeepsRegistry s u := by
  have ended : KeepsRegistry s (endCall (translate c s)) := by simp [keepsRegistry_iff, keepsRecord_iff]
  exact ended.trans (keepsRegistry_subfunctionPhase h)

theorem keepsRegistry_subfunctionReturned (c : Byte) (s : State) : KeepsRegistry s (subfunctionReturned c s) := by
  simp [subfunctionReturned, keepsRegistry_iff, keepsRecord_iff]

/-! ### The commands that write the registry -/

theorem keepsRecord_regInsert (k : Byte) (v : ServiceEntry) (s : State) : KeepsRecord s (regInsert k v s).2 := by
  rcases regInsert_cases k v s with ⟨_, e⟩ | ⟨_, _, e⟩ | ⟨_, _, e⟩ <;> simp [e, keepsRecord_iff]

theorem keepsRecord_appendSub (k : Byte) (x : SubEntry) (s : State) : KeepsRecord s (appendSub k x s).2 := by
  rcases appendSub_eq (s := s) k x with e | ⟨_, _, _, e⟩
  · simp [e, keepsRecord_iff]
  · exact e ▸ keepsRecord_regInsert _ _ _

theorem keepsRecord_regRemove (k : Byte) (s : State) : KeepsRecord s (regRemove k s).2 := by
  rcases regRemove_cases k s with ⟨_, e⟩ | ⟨_, e⟩ <;> simp [e, keepsRecord_iff]

/-- R37, R332: INIT of an engine that is not live, or a registration, a removal or DELETE while no handler call is outstanding. -/
def MayWriteRegistry (i : Instr) (s : State) : Prop :=
  (i = .init ∧ s.live = false) ∨ (needsIdle i = true ∧ i ≠ .dispatch ∧ s.dispState = .idle)

/-- What a completed command leaves alone: the record always, the registry unless it is one of its writers. -/
theorem ran_keeps {i : Instr} {s u : State} {p : List Byte} (ran : Ran i s p u) :
    KeepsRecord s u ∧ (KeepsRegistry s u ∨ MayWriteRegistry i s) := by
  have reader (h : KeepsRegistry s u) : KeepsRecord s u ∧ (KeepsRegistry s u ∨ MayWriteRegistry i s) :=
    ⟨h.toKeepsRecord, .inl h⟩
  cases ran with
  | report => exact reader (keepsRegistry_self s)
  | respondNegative => exact reader (keepsRegistry_respondNegative _ s)
  | respondPositive => exact reader (by simp [keepsRegistry_iff, keepsRecord_iff])
  | single => exact reader (keepsRegistry_intakeSingle _ s)
  | first => exact reader (keepsRegistry_intakeFirst _ s)
  | consecutive _ _ _ hu => exact reader (keepsRegistry_intakeConsecutive hu)
  | tick => exact reader (by simp [keepsRegistry_iff, keepsRecord_iff])
  | dispatch _ _ hu => exact reader (keepsRegistry_dispatchRequest hu)
  | serviceReturned _ _ hu => exact reader (keepsRegistry_serviceReturned hu)
  | subfunctionReturned => exact reader (keepsRegistry_subfunctionReturned _ s)
  | registerService _ hd => exact ⟨keepsRecord_regInsert _ _ s, .inr (.inr ⟨rfl, nofun, hd⟩)⟩
  | registerSubfunction _ hd => exact ⟨keepsRecord_appendSub _ _ s, .inr (.inr ⟨rfl, nofun, hd⟩)⟩
  | removeService _ hd => exact ⟨keepsRecord_regRemove _ s, .inr (.inr ⟨rfl, nofun, hd⟩)⟩
  | delete _ hd => exact ⟨by simp [keepsRecord_iff], .inr (.inr ⟨rfl, nofun, hd⟩)⟩
  | init hl => exact ⟨by simp [keepsRecord_iff], .inr (.inl ⟨rfl, hl⟩)⟩

theorem exec_keeps {i : Instr} {s t : State} (h : exec i s = .next t) :
    KeepsRecord s t ∧ (KeepsRegistry s t ∨ MayWriteRegistry i s) := by
  obtain ⟨p, u, ran, rfl⟩ := exec_ran h
  obtain ⟨record, registry⟩ := ran_keeps ran
  exact ⟨by simpa [keepsRecord_iff] using record, registry.imp_left fun h => h.trans (keepsRegistry_emit _ u)⟩

/-- Settles O56. -/
theorem configurationIsFixed : Obligations.ConfigurationIsFixed := by
  intro i s t h
  obtain ⟨record, _⟩ := exec_keeps h
  exact keepsRecord_iff.1 record

/-- Settles O55: in each of the three cases the command is none of those that may write the registry. -/
theorem registryFixedDuringDispatch : Obligations.RegistryFixedDuringDispatch := by
  intro i s t h
  have kept (no : ¬ MayWriteRegistry i s) : t.reg = s.reg ∧ t.regRemaining = s.regRemaining ∧ t.regChains = s.regChains := by
    obtain ⟨_, registry⟩ := exec_keeps h
    have := registry.resolve_right no
    exact ⟨this.reg, this.regRemaining, this.regChains⟩
  refine ⟨fun hl hd => kept ?_, fun hi hn => kept ?_, fun hi => kept ?_⟩
  · simp [MayWriteRegistry, hl, hd]
  · simp [MayWriteRegistry, hi, hn]
  · simp [MayWriteRegistry, hi]

end Sys2Proof.Machine
end

section
/-! PROOFS. O24: the registry's chains are hidden (spec 10_state.md R39, 41_registry.md R160). Every operation commutes with replacing the chains,
so every command ends in the same outcome but for them. -/

namespace Sys2Proof.Machine

/-! ### The intake branches, with R211's activity mark as an operation -/

/-- R209, R211: the reception is marked as activity. -/
def markActivity (s : State) : State := { s with lastActivity := s.tick }

theorem startReassembly_eq (total : Len12) (p : Bytes6) (s : State) :
    startReassembly total p s =
      if s.cfg.reasmCapacity < total.toNat then abort (respondNegative s.cfg.nrcRtl (markActivity s)).2
      else startNcs (transmit (packFlowControl 0 0 flowCts) (latchFirst total p (markActivity s))).2 := rfl

/-- R126: a ConsecutiveFrame unpacks, its sequence number being four bits. -/
theorem unpackConsecutive_of_type {f : Frame} (h : f.typeNibble = 2) : unpackConsecutive f = .ok (f.kindNibble, f.tail7) := by
  have nibble : ¬ 15 < f.kindNibble.toNat := by omega
  simp [unpackConsecutive, h, nibble]

theorem unpackConsecutive_of_other {f : Frame} (h : f.typeNibble ≠ 2) : unpackConsecutive f = .error .typeError := if_pos h

/-- R210 to R213: ignored, out of sequence, out of the buffer's range, or accepted. -/
theorem intakeConsecutive_eq (f : Frame) (s : State) :
    intakeConsecutive f s =
      if s.reasmState ≠ .receiving ∨ f.typeNibble ≠ 2 then .ok s
      else if f.kindNibble ≠ s.reasmExpSn then .ok (respondNegative s.cfg.nrcRse (abort (markActivity s))).2
      else if copyCount s = 0 ∨ s.cfg.reasmCapacity < s.reasmRecv.toNat + copyCount s then .error .reassemblyRange
      else .ok (acceptConsecutive f.tail7 (copyCount s) (markActivity s)) := by
  unfold intakeConsecutive
  by_cases hr : s.reasmState = .receiving
  · by_cases ht : f.typeNibble = 2
    · rw [if_neg (not_not.2 hr), unpackConsecutive_of_type ht, if_neg (by simp [hr, ht])]
      rfl
    · rw [if_neg (not_not.2 hr), unpackConsecutive_of_other ht, if_pos (.inr ht)]
  · rw [if_pos hr, if_pos (.inl hr)]

/-! ### Other chains -/

/-- R39: the same state with the chains `c` in place of its own. -/
def withChains (c : List (List Byte)) (s : State) : State := { s with regChains := c }

section
variable (c : List (List Byte)) (s : State)

@[simp] theorem withChains_cfg : (withChains c s).cfg = s.cfg := rfl
@[simp] theorem withChains_live : (withChains c s).live = s.live := rfl
@[simp] theorem withChains_sid : (withChains c s).sid = s.sid := rfl
@[simp] theorem withChains_ssid : (withChains c s).ssid = s.ssid := rfl
@[simp] theorem withChains_active : (withChains c s).active = s.active := rfl
@[simp] theorem withChains_busy : (withChains c s).busy = s.busy := rfl
@[simp] theorem withChains_reasmState : (withChains c s).reasmState = s.reasmState := rfl
@[simp] theorem withChains_reasmRecv : (withChains c s).reasmRecv = s.reasmRecv := rfl
@[simp] theorem withChains_reasmExpSn : (withChains c s).reasmExpSn = s.reasmExpSn := rfl
@[simp] theorem withChains_reasmBuf : (withChains c s).reasmBuf = s.reasmBuf := rfl
@[simp] theorem withChains_regRemaining : (withChains c s).regRemaining = s.regRemaining := rfl
@[simp] theorem withChains_dispState : (withChains c s).dispState = s.dispState := rfl
@[simp] theorem withChains_dispSid : (withChains c s).dispSid = s.dispSid := rfl
@[simp] theorem withChains_txAnswers : (withChains c s).txAnswers = s.txAnswers := rfl
@[simp] theorem withChains_regFind (k : Byte) : regFind k (withChains c s) = regFind k s := rfl
@[simp] theorem withChains_copyCount : copyCount (withChains c s) = copyCount s := rfl
@[simp] theorem withChains_sessionExpired : sessionExpired (withChains c s) = sessionExpired s := rfl
@[simp] theorem withChains_ncsExpired : ncsExpired (withChains c s) = ncsExpired s := rfl
@[simp] theorem withChains_waiting : waiting (withChains c s) = waiting s := rfl

theorem markActivity_withChains : markActivity (withChains c s) = withChains c (markActivity s) := rfl
theorem abort_withChains : abort (withChains c s) = withChains c (abort s) := rfl
theorem latchFirst_withChains (total : Len12) (p : Bytes6) : latchFirst total p (withChains c s) = withChains c (latchFirst total p s) := rfl

/-! ### Output ports -/

theorem takeAnswer_withChains : takeAnswer (withChains c s) = withChains c (takeAnswer s) := by
  unfold takeAnswer
  rw [withChains_txAnswers]
  split <;> rfl

theorem transmit_withChains (f : Frame) : transmit f (withChains c s) = (transmit f s).map id (withChains c) := by
  unfold transmit
  rw [takeAnswer_withChains, withChains_cfg]
  split <;> rfl

theorem respondPositive_withChains : respondPositive (withChains c s) = (respondPositive s).map id (withChains c) := by
  rw [respondPositive_eq, respondPositive_eq]
  exact transmit_withChains c s _

theorem respondNegative_withChains (code : Byte) :
    respondNegative code (withChains c s) = (respondNegative code s).map id (withChains c) := by
  rw [respondNegative_eq, respondNegative_eq]
  exact transmit_withChains c s _

theorem translate_withChains (code : Byte) : translate code (withChains c s) = withChains c (translate code s) := by
  unfold translate
  rw [respondPositive_withChains, respondNegative_withChains, withChains_cfg]
  split
  · rfl
  · split <;> rfl

/-! ### Intake -/

theorem intakeSingle_withChains (f : Frame) : intakeSingle f (withChains c s) = withChains c (intakeSingle f s) := by
  unfold intakeSingle
  rw [respondNegative_withChains, withChains_busy]
  split
  · rfl
  · split <;> rfl

theorem abortRunning_withChains : abortRunning (withChains c s) = withChains c (abortRunning s) := by
  unfold abortRunning
  rw [respondNegative_withChains, withChains_reasmState]
  split <;> rfl

theorem startReassembly_withChains (total : Len12) (p : Bytes6) :
    startReassembly total p (withChains c s) = withChains c (startReassembly total p s) := by
  simp only [startReassembly_eq, withChains_cfg, markActivity_withChains, latchFirst_withChains, respondNegative_withChains,
    transmit_withChains]
  split <;> rfl

theorem intakeFirst_withChains (f : Frame) : intakeFirst f (withChains c s) = withChains c (intakeFirst f s) := by
  unfold intakeFirst
  split
  · rfl
  · simp only [abortRunning_withChains, startReassembly_withChains, respondNegative_withChains, withChains_busy]
    split <;> rfl

theorem acceptConsecutive_withChains (p : Bytes7) (n : Nat) :
    acceptConsecutive p n (withChains c s) = withChains c (acceptConsecutive p n s) := by
  dsimp only [acceptConsecutive, withChains]
  split
  · rfl
  · split <;> rfl

theorem intakeConsecutive_withChains (f : Frame) :
    intakeConsecutive f (withChains c s) = (intakeConsecutive f s).map (withChains c) := by
  simp only [intakeConsecutive_eq, withChains_reasmState, withChains_reasmExpSn, withChains_cfg, withChains_copyCount,
    withChains_reasmRecv, markActivity_withChains, abort_withChains, respondNegative_withChains, acceptConsecutive_withChains]
  split
  · rfl
  · split
    · rfl
    · split <;> rfl

theorem receive_withChains (f : Frame) : receive f (withChains c s) = (receive f s).map (withChains c) := by
  unfold receive
  split
  · exact congrArg Except.ok (intakeSingle_withChains c s f)
  · exact congrArg Except.ok (intakeFirst_withChains c s f)
  · exact intakeConsecutive_withChains c s f
  · rfl

/-! ### Dispatch -/

theorem timeouts_withChains : timeouts (withChains c s) = withChains c (timeouts s) := by
  unfold timeouts
  rw [withChains_sessionExpired, withChains_ncsExpired]
  split <;> split <;> rfl

theorem subfunctionPhase_withChains : subfunctionPhase (withChains c s) = (subfunctionPhase s).map (withChains c) := by
  unfold subfunctionPhase
  simp only [withChains_dispSid, withChains_ssid, withChains_cfg, withChains_regFind, respondNegative_withChains]
  split
  · rfl
  · split
    · rfl
    · split <;> rfl

theorem lookupRequest_withChains : lookupRequest (withChains c s) = (lookupRequest s).map (withChains c) := by
  unfold lookupRequest servicePhase
  simp only [withChains_sid, withChains_cfg, withChains_regFind, respondNegative_withChains]
  split
  · rfl
  · split
    · rfl
    · exact subfunctionPhase_withChains c (latchDispatched s)

theorem dispatchRequest_withChains : dispatchRequest (withChains c s) = (dispatchRequest s).map (withChains c) := by
  unfold dispatchRequest
  simp only [timeouts_withChains, withChains_sessionExpired, withChains_active]
  split
  · rfl
  · split
    · rfl
    · exact lookupRequest_withChains c (takeRequest (timeouts s))

theorem serviceReturned_withChains (code : Byte) :
    serviceReturned code (withChains c s) = (serviceReturned code s).map (withChains c) := by
  unfold serviceReturned
  rw [translate_withChains]
  exact subfunctionPhase_withChains c (endCall (translate code s))

theorem subfunctionReturned_withChains (code : Byte) :
    subfunctionReturned code (withChains c s) = withChains c (subfunctionReturned code s) := by
  unfold subfunctionReturned
  rw [translate_withChains]
  rfl

/-! ### Registry primitives: the chains follow, each in its own way -/

theorem regInsert_withChains (k : Byte) (v : ServiceEntry) :
    ∃ c', regInsert k v (withChains c s) = (regInsert k v s).map id (withChains c') := by
  unfold regInsert
  rw [withChains_regFind, withChains_regRemaining]
  split
  · exact ⟨_, rfl⟩
  · split <;> exact ⟨_, rfl⟩

theorem appendSub_withChains (k : Byte) (x : SubEntry) :
    appendSub k x (withChains c s) = (appendSub k x s).map id (withChains c) := by
  unfold appendSub
  rw [withChains_regFind, withChains_cfg]
  split
  · rfl
  · split <;> rfl

theorem regRemove_withChains (k : Byte) :
    ∃ c', regRemove k (withChains c s) = (regRemove k s).map id (withChains c') := by
  unfold regRemove
  rw [withChains_regFind]
  split <;> exact ⟨_, rfl⟩

end

/-! ### Outcomes that differ in the chains alone -/

/-- The two outcomes are next states that differ in their chains alone, the same fault or the same refusal. -/
def SameButChains : Result → Result → Prop
  | .next t, .next t' => ∃ c, t' = withChains c t
  | .fault k, .fault k' => k' = k
  | .refused r, .refused r' => r' = r
  | _, _ => False

theorem SameButChains.of_next {t : State} {r : Result} (h : SameButChains (.next t) r) : ∃ c, r = .next (withChains c t) := by
  cases r with
  | next t' =>
    obtain ⟨c, rfl⟩ := h
    exact ⟨c, rfl⟩
  | fault | refused => exact h.elim

theorem SameButChains.of_fault {k : Fault} {r : Result} (h : SameButChains (.fault k) r) : r = .fault k := by
  cases r with
  | fault => exact congrArg _ h
  | next | refused => exact h.elim

theorem SameButChains.of_refused {q : Refusal} {r : Result} (h : SameButChains (.refused q) r) : r = .refused q := by
  cases r with
  | refused => exact congrArg _ h
  | next | fault => exact h.elim

section
variable (c : List (List Byte)) (s : State)

theorem complete_sameButChains (st : Status) (n : Nat) (outs : List Byte) :
    SameButChains (complete st n outs s) (complete st n outs (withChains c s)) := ⟨c, rfl⟩

theorem completeCodec_sameButChains (n : Nat) (r : Except Status (List Byte)) :
    SameButChains (completeCodec n r s) (completeCodec n r (withChains c s)) := by
  cases r <;> exact complete_sameButChains c s _ _ _

theorem completeWith_sameButChains {r r' : Status × State} (h : ∃ c', r' = r.map id (withChains c')) :
    SameButChains (completeWith r) (completeWith r') := by
  obtain ⟨c', rfl⟩ := h
  exact complete_sameButChains c' r.2 _ _ _

theorem completeOk_sameButChains {r r' : Except Fault State} (h : r' = r.map (withChains c)) :
    SameButChains (completeOk r) (completeOk r') := by
  subst h
  cases r with
  | error => rfl
  | ok u => exact complete_sameButChains c u _ _ _

theorem whenLive_sameButChains {r r' : Result} (h : SameButChains r r') :
    SameButChains (whenLive s r) (whenLive (withChains c s) r') := by
  unfold whenLive
  rw [withChains_live]
  split
  · exact h
  · rfl

theorem whenIdle_sameButChains {r r' : Result} (h : SameButChains r r') :
    SameButChains (whenIdle s r) (whenIdle (withChains c s) r') := by
  refine whenLive_sameButChains c s ?_
  rw [withChains_waiting]
  split
  · rfl
  · exact h

/-! ### Every command -/

theorem execInit_sameButChains : SameButChains (execInit s) (execInit (withChains c s)) := by
  unfold execInit
  rw [withChains_live, withChains_cfg]
  split
  · rfl
  · split
    · exact complete_sameButChains c s _ _ _
    · exact complete_sameButChains (List.replicate s.cfg.bucketCount []) (initialise s) _ _ _

/-- After DELETE the chains cease to exist, whatever they were (R165). -/
theorem execDelete_sameButChains : SameButChains (execDelete s) (execDelete (withChains c s)) :=
  whenIdle_sameButChains c s (complete_sameButChains [] (tearDown s) _ _ _)

theorem execFindService_sameButChains (key : Byte) :
    SameButChains (execFindService key s) (execFindService key (withChains c s)) := by
  refine whenLive_sameButChains c s ?_
  rw [withChains_regFind]
  split <;> exact complete_sameButChains c s _ _ _

theorem execReadBuf_sameButChains (off : Half) : SameButChains (execReadBuf off s) (execReadBuf off (withChains c s)) := by
  refine whenLive_sameButChains c s ?_
  rw [withChains_cfg, withChains_reasmBuf]
  split <;> exact complete_sameButChains c s _ _ _

theorem execHandlerReturn_sameButChains (code : Byte) :
    SameButChains (execHandlerReturn code s) (execHandlerReturn code (withChains c s)) := by
  refine whenLive_sameButChains c s ?_
  rw [withChains_dispState]
  split
  · rfl
  · exact completeOk_sameButChains c (serviceReturned_withChains c s code)
  · exact completeOk_sameButChains c (congrArg Except.ok (subfunctionReturned_withChains c s code))

theorem exec_sameButChains (i : Instr) : SameButChains (exec i s) (exec i (withChains c s)) := by
  cases i with
  | packSf | unpackSf | packFf | unpackFf | packCf | unpackCf | unpackFc => exact completeCodec_sameButChains c s _ _
  | packFc => exact complete_sameButChains c s _ _ _
  | frameSf len p =>
    exact whenLive_sameButChains c s (completeOk_sameButChains c (congrArg Except.ok (intakeSingle_withChains c s _)))
  | frameFf total p =>
    exact whenLive_sameButChains c s (completeOk_sameButChains c (congrArg Except.ok (intakeFirst_withChains c s _)))
  | frameCf sn p => exact whenLive_sameButChains c s (completeOk_sameButChains c (intakeConsecutive_withChains c s _))
  | frameFc | frameReserved | frameReservedHi => exact whenLive_sameButChains c s (completeOk_sameButChains c rfl)
  | registerService => exact whenIdle_sameButChains c s (completeWith_sameButChains (regInsert_withChains c s _ _))
  | registerSubfunction => exact whenIdle_sameButChains c s (completeWith_sameButChains ⟨c, appendSub_withChains c s _ _⟩)
  | findService key => exact execFindService_sameButChains c s key
  | removeService => exact whenIdle_sameButChains c s (completeWith_sameButChains (regRemove_withChains c s _))
  | init => exact execInit_sameButChains c s
  | delete => exact execDelete_sameButChains c s
  | receiveFrame f => exact whenLive_sameButChains c s (completeOk_sameButChains c (receive_withChains c s f))
  | tick => exact whenLive_sameButChains c s (complete_sameButChains c { s with tick := s.tick + 1 } _ _ _)
  | dispatch => exact whenIdle_sameButChains c s (completeOk_sameButChains c (dispatchRequest_withChains c s))
  | handlerReturn code => exact execHandlerReturn_sameButChains c s code
  | readState => exact whenLive_sameButChains c s (complete_sameButChains c s _ _ _)
  | readBuf off => exact execReadBuf_sameButChains c s off
  | respondPositive => exact whenLive_sameButChains c s (completeWith_sameButChains ⟨c, respondPositive_withChains c s⟩)
  | respondNegative => exact whenLive_sameButChains c s (completeWith_sameButChains ⟨c, respondNegative_withChains c s _⟩)
  | reservedOpcode => rfl

end

/-- Settles O24: the outcome under other chains is read off `SameButChains`, by the kind of the first outcome. -/
theorem registryChainsAreHidden : Obligations.RegistryChainsAreHidden := by
  intro i s c
  have same : SameButChains (exec i s) (exec i { s with regChains := c }) := exec_sameButChains c s i
  refine ⟨fun t h => ?_, fun k h => ?_, fun r h => ?_⟩ <;> rw [h] at same
  · exact same.of_next
  · exact same.of_fault
  · exact same.of_refused

end Sys2Proof.Machine
end

section
/-! PROOFS. O6, O53, O60: the step that runs an instruction, what the reading, codec and response commands leave unchanged, and that the model's
own two faults are out of reach of the invariant (spec 20_memory.md R64, R65, R69; 40_codec.md R120; 43_timer_dispatch.md R248). -/

namespace Sys2Proof.Machine

/-! ### The step -/

theorem takeInput_eq {s : State} {x : Input} {rest : List Input} (h : s.input = x :: rest) : takeInput s = { s with input := rest } := by
  simp [takeInput, h]

/-- Settles O6: such a run is not stopped, so its step runs what the oldest input decodes to. -/
theorem stepRunsDecodedInstruction : Obligations.StepRunsDecodedInstruction := by
  intro s x rest i hf hr hw hi hx
  have running : stopped s = none := stopped_eq_none hf hr hw
  rw [step_of_decoded running hi hx, takeInput_eq hi]

/-! ### Reading and codec commands -/

/-- The result appends one packet and changes nothing else. -/
def AppendsPacket (r : Result) (s : State) : Prop := ∃ packet, r = .next (emit (.result packet) s)

theorem complete_appendsPacket (st : Status) (n : Nat) (outs : List Byte) (s : State) : AppendsPacket (complete st n outs s) s := ⟨_, rfl⟩

theorem completeCodec_appendsPacket (n : Nat) (r : Except Status (List Byte)) (s : State) : AppendsPacket (completeCodec n r s) s := by
  cases r <;> exact complete_appendsPacket ..

/-- R120: in every state. -/
theorem exec_codec {i : Instr} (h : isCodec i = true) (s : State) : AppendsPacket (exec i s) s := by
  cases i with
  | packSf | unpackSf | packFf | unpackFf | packCf | unpackCf | unpackFc => exact completeCodec_appendsPacket ..
  | packFc => exact complete_appendsPacket ..
  | _ => cases h

/-- R65, R331: a read that is no codec command completes when the engine is live. -/
theorem exec_read {i : Instr} (h : isRead i = true) (hc : isCodec i = false) (s : State) :
    ∃ r, exec i s = whenLive s r ∧ AppendsPacket r s := by
  cases i with
  | findService key =>
    refine ⟨_, rfl, ?_⟩
    split <;> exact complete_appendsPacket ..
  | readState => exact ⟨_, rfl, complete_appendsPacket ..⟩
  | readBuf off =>
    refine ⟨_, rfl, ?_⟩
    split <;> exact complete_appendsPacket ..
  | _ => exact absurd (hc.symm.trans h) nofun

/-- R120, R331: a codec command completes in every state, another read on a live engine alone. -/
theorem codec_or_live_of_next {i : Instr} {s t : State} (h : isRead i = true) (ht : exec i s = .next t) :
    isCodec i = true ∨ s.live = true := by
  cases hc : isCodec i with
  | true => exact .inl rfl
  | false =>
    obtain ⟨r, e, _⟩ := exec_read h hc s
    obtain ⟨live, _⟩ := whenLive_next (e ▸ ht)
    exact .inr live

theorem appendsPacket_of_read {i : Instr} {s : State} (h : isRead i = true) (able : isCodec i = true ∨ s.live = true) :
    AppendsPacket (exec i s) s := by
  cases hc : isCodec i with
  | true => exact exec_codec hc s
  | false =>
    obtain ⟨r, e, appends⟩ := exec_read h hc s
    rwa [e, whenLive_of_live (able.resolve_left (by simp [hc]))]

/-! ### Response commands -/

/-- No state of the engine differs: the trace and the answers of the transmit capability apart, the states are equal. -/
def SameEngine (s t : State) : Prop := t = { s with trace := t.trace, txAnswers := t.txAnswers, draws := t.draws }

theorem sameEngine_takeAnswer (s : State) : SameEngine s (takeAnswer s) := by
  unfold takeAnswer
  split <;> rfl

theorem sameEngine_emit {s t : State} (h : SameEngine s t) (e : Event) : SameEngine s (emit e t) :=
  congrArg (emit e) h

/-- R285. -/
theorem sameEngine_transmit (f : Frame) (s : State) : SameEngine s (transmit f s).2 := by
  rcases transmit_cases f s with ⟨_, e⟩ | ⟨_, e⟩ <;> rw [e]
  · rfl
  · exact sameEngine_emit (sameEngine_takeAnswer s) _

/-- R280, R281: a response command is one attempt to transmit a frame. -/
theorem exec_response {i : Instr} (h : i = .respondPositive ∨ ∃ c, i = .respondNegative c) (s : State) :
    ∃ f, exec i s = whenLive s (completeWith (transmit f s)) := by
  rcases h with rfl | ⟨c, rfl⟩
  · exact ⟨positiveFrame s.sid s.ssid, respondPositive_frame s ▸ rfl⟩
  · exact ⟨negativeFrame s.sid c, respondNegative_frame c s ▸ rfl⟩

theorem sameEngine_of_response {i : Instr} {s t : State} (h : i = .respondPositive ∨ ∃ c, i = .respondNegative c)
    (ht : exec i s = .next t) : SameEngine s t := by
  obtain ⟨f, e⟩ := exec_response h s
  obtain ⟨_, completed⟩ := whenLive_next (e ▸ ht)
  rw [completeWith_next completed]
  exact sameEngine_emit (sameEngine_transmit f s) _

/-- Settles O53: the reads append a packet whenever they complete, and a response command only transmits. -/
theorem readsHaveNoSideEffects : Obligations.ReadsHaveNoSideEffects := by
  refine ⟨fun i s t h ht => ?_, fun i s h able => ?_, fun i s t => sameEngine_of_response⟩
  · obtain ⟨packet, e⟩ := appendsPacket_of_read h (codec_or_live_of_next h ht)
    exact ⟨packet, Host.Outcome.next.inj (ht.symm.trans e)⟩
  · obtain ⟨packet, e⟩ := appendsPacket_of_read h able
    exact ⟨_, e⟩

/-! ### The model's own faults -/

/-- The result is neither of the two faults the model adds (assumption 9). -/
def NoModelFault (r : Result) : Prop := r ≠ .fault .reassemblyRange ∧ r ≠ .fault .entryMissing

theorem noModelFault_next (s : State) : NoModelFault (.next s) := ⟨nofun, nofun⟩

theorem noModelFault_completeCodec (n : Nat) (r : Except Status (List Byte)) (s : State) : NoModelFault (completeCodec n r s) := by
  cases r <;> exact noModelFault_next _

theorem noModelFault_completeOk {r : Except Fault State} (h : ∃ u, r = .ok u) : NoModelFault (completeOk r) := by
  obtain ⟨u, rfl⟩ := h
  exact noModelFault_next _

theorem noModelFault_whenLive {s : State} {r : Result} (h : s.live = true → NoModelFault r) : NoModelFault (whenLive s r) := by
  unfold whenLive
  split
  · next live => exact h live
  · exact ⟨nofun, nofun⟩

theorem noModelFault_whenIdle {s : State} {r : Result} (h : NoModelFault r) : NoModelFault (whenIdle s r) := by
  refine noModelFault_whenLive fun _ => ?_
  split
  · exact ⟨nofun, nofun⟩
  · exact h

theorem State.Inv.reassembly {s : State} (h : s.Inv) (hl : s.live = true) : reassemblyInv s := by
  obtain ⟨_, _, _, engine⟩ := h
  obtain ⟨reassembly, _⟩ := engine hl
  exact reassembly

/-- R35, R64: while a message is received the next bytes lie below its total, which the buffer holds. -/
theorem copyCount_in_range {s : State} (h : reassemblyInv s) (hr : s.reasmState = .receiving) :
    copyCount s ≠ 0 ∧ s.reasmRecv.toNat + copyCount s ≤ s.cfg.reasmCapacity := by
  obtain ⟨_, counters⟩ := h
  simp only [hr] at counters
  obtain ⟨_, fits, pending, _⟩ := counters
  unfold copyCount
  omega

theorem intakeConsecutive_ok {s : State} (h : reassemblyInv s) (f : Frame) : ∃ u, intakeConsecutive f s = .ok u := by
  rw [intakeConsecutive_eq]
  split
  · exact ⟨_, rfl⟩
  · next taken =>
    obtain ⟨some, fits⟩ := copyCount_in_range h (by simpa using (not_or.1 taken).1)
    split
    · exact ⟨_, rfl⟩
    · rw [if_neg (by omega)]
      exact ⟨_, rfl⟩

theorem receive_ok {s : State} (h : reassemblyInv s) (f : Frame) : ∃ u, receive f s = .ok u := by
  unfold receive
  split
  case h_3 => exact intakeConsecutive_ok h f
  all_goals exact ⟨_, rfl⟩

/-- R248: the sub-function phase of a registered service does not fault. -/
theorem subfunctionPhase_ok {s : State} {e : ServiceEntry} (h : regFind s.dispSid s = some e) : ∃ u, subfunctionPhase s = .ok u := by
  simp only [subfunctionPhase, h]
  split
  · exact ⟨_, rfl⟩
  · split <;> exact ⟨_, rfl⟩

/-- R245: Lookup goes on with the very service it has found. -/
theorem lookupRequest_ok (s : State) : ∃ u, lookupRequest s = .ok u := by
  unfold lookupRequest servicePhase
  split
  · exact ⟨_, rfl⟩
  · next e found =>
    split
    · exact ⟨_, rfl⟩
    · exact subfunctionPhase_ok (s := latchDispatched s) found

theorem dispatchRequest_ok (s : State) : ∃ u, dispatchRequest s = .ok u := by
  unfold dispatchRequest
  split
  · exact ⟨_, rfl⟩
  · split
    · exact ⟨_, rfl⟩
    · exact lookupRequest_ok _

/-- R41, R71: a service stays registered while its handler runs. -/
theorem serviceReturned_ok {s : State} (h : dispatchInv s) (hd : s.dispState = .waitService) (c : Byte) :
    ∃ u, serviceReturned c s = .ok u := by
  obtain ⟨_, dispatched⟩ := h
  obtain ⟨_, registered⟩ := dispatched (by simp [hd])
  obtain ⟨e, found⟩ := Option.isSome_iff_exists.1 registered
  refine subfunctionPhase_ok (e := e) ?_
  rw [endCall_dispSid, translate_dispSid, regFind_congr (s := s) (by simp), found]

theorem noModelFault_execInit (s : State) : NoModelFault (execInit s) := by
  unfold execInit
  split
  · exact ⟨nofun, nofun⟩
  · split <;> exact noModelFault_next _

theorem noModelFault_execHandlerReturn {s : State} (h : s.Inv) (c : Byte) : NoModelFault (execHandlerReturn c s) := by
  refine noModelFault_whenLive fun live => ?_
  split
  · exact ⟨nofun, nofun⟩
  · next wait => exact noModelFault_completeOk (serviceReturned_ok (h.dispatch live) wait c)
  · exact noModelFault_next _

theorem noModelFault_exec {s : State} (h : s.Inv) (i : Instr) : NoModelFault (exec i s) := by
  cases i with
  | packSf | unpackSf | packFf | unpackFf | packCf | unpackCf | unpackFc => exact noModelFault_completeCodec ..
  | packFc => exact noModelFault_next _
  | frameSf | frameFf | frameFc | frameReserved | frameReservedHi | tick | readState | respondPositive | respondNegative =>
    exact noModelFault_whenLive fun _ => noModelFault_next _
  | frameCf => exact noModelFault_whenLive fun live => noModelFault_completeOk (intakeConsecutive_ok (h.reassembly live) _)
  | receiveFrame f => exact noModelFault_whenLive fun live => noModelFault_completeOk (receive_ok (h.reassembly live) f)
  | registerService | registerSubfunction | removeService | delete => exact noModelFault_whenIdle (noModelFault_next _)
  | dispatch => exact noModelFault_whenIdle (noModelFault_completeOk (dispatchRequest_ok s))
  | findService | readBuf =>
    refine noModelFault_whenLive fun _ => ?_
    split <;> exact noModelFault_next _
  | init => exact noModelFault_execInit s
  | handlerReturn c => exact noModelFault_execHandlerReturn h c
  | reservedOpcode => exact ⟨nofun, nofun⟩

/-- Settles O60: the reassembly copies within its buffer and the dispatched service is registered. -/
theorem modelFaultsAreUnreachable : Obligations.ModelFaultsAreUnreachable := fun i _ h => noModelFault_exec h i

end Sys2Proof.Machine
end

section
/-! PROOFS. O57: the bit order is read by no operation (spec 20_memory.md R62). Every operation commutes with replacing it, so every command ends
in the same outcome but for it. -/

namespace Sys2Proof.Machine

/-- R62: the same state under the bit order `b`. -/
def withBitOrder (b : BitOrder) (s : State) : State := { s with cfg := { s.cfg with bitOrder := b } }

/-- The outcome with `g` applied to the next state, if there is one. -/
def mapNext (g : State → State) : Result → Result
  | .next t => .next (g t)
  | .fault k => .fault k
  | .refused r => .refused r

section
variable (b : BitOrder) (s : State)

/-! ### What the operations read -/

@[simp] theorem withBitOrder_cfg : (withBitOrder b s).cfg = { s.cfg with bitOrder := b } := rfl
@[simp] theorem withBitOrder_live : (withBitOrder b s).live = s.live := rfl
@[simp] theorem withBitOrder_sid : (withBitOrder b s).sid = s.sid := rfl
@[simp] theorem withBitOrder_ssid : (withBitOrder b s).ssid = s.ssid := rfl
@[simp] theorem withBitOrder_active : (withBitOrder b s).active = s.active := rfl
@[simp] theorem withBitOrder_busy : (withBitOrder b s).busy = s.busy := rfl
@[simp] theorem withBitOrder_reasmState : (withBitOrder b s).reasmState = s.reasmState := rfl
@[simp] theorem withBitOrder_reasmRecv : (withBitOrder b s).reasmRecv = s.reasmRecv := rfl
@[simp] theorem withBitOrder_reasmExpSn : (withBitOrder b s).reasmExpSn = s.reasmExpSn := rfl
@[simp] theorem withBitOrder_reasmBuf : (withBitOrder b s).reasmBuf = s.reasmBuf := rfl
@[simp] theorem withBitOrder_regRemaining : (withBitOrder b s).regRemaining = s.regRemaining := rfl
@[simp] theorem withBitOrder_dispState : (withBitOrder b s).dispState = s.dispState := rfl
@[simp] theorem withBitOrder_dispSid : (withBitOrder b s).dispSid = s.dispSid := rfl
@[simp] theorem withBitOrder_txAnswers : (withBitOrder b s).txAnswers = s.txAnswers := rfl
@[simp] theorem withBitOrder_regFind (k : Byte) : regFind k (withBitOrder b s) = regFind k s := rfl
@[simp] theorem withBitOrder_copyCount : copyCount (withBitOrder b s) = copyCount s := rfl
@[simp] theorem withBitOrder_sessionExpired : sessionExpired (withBitOrder b s) = sessionExpired s := rfl
@[simp] theorem withBitOrder_ncsExpired : ncsExpired (withBitOrder b s) = ncsExpired s := rfl
@[simp] theorem withBitOrder_waiting : waiting (withBitOrder b s) = waiting s := rfl

theorem markActivity_withBitOrder : markActivity (withBitOrder b s) = withBitOrder b (markActivity s) := rfl
theorem abort_withBitOrder : abort (withBitOrder b s) = withBitOrder b (abort s) := rfl
theorem latchFirst_withBitOrder (total : Len12) (p : Bytes6) :
    latchFirst total p (withBitOrder b s) = withBitOrder b (latchFirst total p s) := rfl

/-! `withBitOrder_cfg` does not reach the decision procedure of a comparison with a parameter; these three are for `rw`, which does. -/

theorem withBitOrder_bucketCount : (withBitOrder b s).cfg.bucketCount = s.cfg.bucketCount := rfl
theorem withBitOrder_maxSubfunctions : (withBitOrder b s).cfg.maxSubfunctions = s.cfg.maxSubfunctions := rfl
theorem withBitOrder_reasmCapacity : (withBitOrder b s).cfg.reasmCapacity = s.cfg.reasmCapacity := rfl

/-! ### Output ports -/

theorem takeAnswer_withBitOrder : takeAnswer (withBitOrder b s) = withBitOrder b (takeAnswer s) := by
  unfold takeAnswer
  rw [withBitOrder_txAnswers]
  split <;> rfl

theorem transmit_withBitOrder (f : Frame) : transmit f (withBitOrder b s) = (transmit f s).map id (withBitOrder b) := by
  simp only [transmit, takeAnswer_withBitOrder, withBitOrder_cfg]
  split <;> rfl

theorem respondPositive_withBitOrder : respondPositive (withBitOrder b s) = (respondPositive s).map id (withBitOrder b) := by
  simp only [respondPositive_frame, transmit_withBitOrder, withBitOrder_sid, withBitOrder_ssid]

theorem respondNegative_withBitOrder (c : Byte) :
    respondNegative c (withBitOrder b s) = (respondNegative c s).map id (withBitOrder b) := by
  simp only [respondNegative_frame, transmit_withBitOrder, withBitOrder_sid]

theorem translate_withBitOrder (c : Byte) : translate c (withBitOrder b s) = withBitOrder b (translate c s) := by
  simp only [translate, respondPositive_withBitOrder, respondNegative_withBitOrder, withBitOrder_cfg]
  split
  · rfl
  · split <;> rfl

/-! ### Intake -/

theorem intakeSingle_withBitOrder (f : Frame) : intakeSingle f (withBitOrder b s) = withBitOrder b (intakeSingle f s) := by
  simp only [intakeSingle, respondNegative_withBitOrder, withBitOrder_busy, withBitOrder_cfg]
  split
  · rfl
  · split <;> rfl

theorem abortRunning_withBitOrder : abortRunning (withBitOrder b s) = withBitOrder b (abortRunning s) := by
  simp only [abortRunning, respondNegative_withBitOrder, withBitOrder_reasmState, withBitOrder_cfg]
  split <;> rfl

theorem startReassembly_withBitOrder (total : Len12) (p : Bytes6) :
    startReassembly total p (withBitOrder b s) = withBitOrder b (startReassembly total p s) := by
  simp only [startReassembly_eq, markActivity_withBitOrder, latchFirst_withBitOrder, respondNegative_withBitOrder,
    transmit_withBitOrder, withBitOrder_cfg]
  split <;> rfl

theorem intakeFirst_withBitOrder (f : Frame) : intakeFirst f (withBitOrder b s) = withBitOrder b (intakeFirst f s) := by
  simp only [intakeFirst, abortRunning_withBitOrder, startReassembly_withBitOrder, respondNegative_withBitOrder,
    withBitOrder_busy, withBitOrder_cfg]
  split
  · rfl
  · split <;> rfl

theorem acceptConsecutive_withBitOrder (p : Bytes7) (n : Nat) :
    acceptConsecutive p n (withBitOrder b s) = withBitOrder b (acceptConsecutive p n s) := by
  dsimp only [acceptConsecutive, withBitOrder]
  split
  · rfl
  · split <;> rfl

theorem intakeConsecutive_withBitOrder (f : Frame) :
    intakeConsecutive f (withBitOrder b s) = (intakeConsecutive f s).map (withBitOrder b) := by
  simp only [intakeConsecutive_eq, markActivity_withBitOrder, abort_withBitOrder, respondNegative_withBitOrder,
    acceptConsecutive_withBitOrder, withBitOrder_reasmState, withBitOrder_reasmExpSn, withBitOrder_copyCount,
    withBitOrder_reasmRecv, withBitOrder_cfg]
  split
  · rfl
  · split
    · rfl
    · split <;> rfl

theorem receive_withBitOrder (f : Frame) : receive f (withBitOrder b s) = (receive f s).map (withBitOrder b) := by
  unfold receive
  split
  · exact congrArg Except.ok (intakeSingle_withBitOrder b s f)
  · exact congrArg Except.ok (intakeFirst_withBitOrder b s f)
  · exact intakeConsecutive_withBitOrder b s f
  · rfl

/-! ### Dispatch -/

theorem timeouts_withBitOrder : timeouts (withBitOrder b s) = withBitOrder b (timeouts s) := by
  unfold timeouts
  rw [withBitOrder_sessionExpired, withBitOrder_ncsExpired]
  split <;> split <;> rfl

theorem subfunctionPhase_withBitOrder : subfunctionPhase (withBitOrder b s) = (subfunctionPhase s).map (withBitOrder b) := by
  simp only [subfunctionPhase, respondNegative_withBitOrder, withBitOrder_regFind, withBitOrder_dispSid, withBitOrder_ssid,
    withBitOrder_cfg]
  split
  · rfl
  · split
    · rfl
    · split <;> rfl

theorem lookupRequest_withBitOrder : lookupRequest (withBitOrder b s) = (lookupRequest s).map (withBitOrder b) := by
  simp only [lookupRequest, servicePhase, respondNegative_withBitOrder, withBitOrder_regFind, withBitOrder_sid, withBitOrder_cfg]
  split
  · rfl
  · split
    · rfl
    · exact subfunctionPhase_withBitOrder b (latchDispatched s)

theorem dispatchRequest_withBitOrder : dispatchRequest (withBitOrder b s) = (dispatchRequest s).map (withBitOrder b) := by
  simp only [dispatchRequest, timeouts_withBitOrder, withBitOrder_sessionExpired, withBitOrder_active]
  split
  · rfl
  · split
    · rfl
    · exact lookupRequest_withBitOrder b (takeRequest (timeouts s))

theorem serviceReturned_withBitOrder (c : Byte) :
    serviceReturned c (withBitOrder b s) = (serviceReturned c s).map (withBitOrder b) := by
  unfold serviceReturned
  rw [translate_withBitOrder]
  exact subfunctionPhase_withBitOrder b (endCall (translate c s))

theorem subfunctionReturned_withBitOrder (c : Byte) :
    subfunctionReturned c (withBitOrder b s) = withBitOrder b (subfunctionReturned c s) := by
  unfold subfunctionReturned
  rw [translate_withBitOrder]
  rfl

/-! ### Registry primitives -/

theorem regInsert_withBitOrder (k : Byte) (v : ServiceEntry) :
    regInsert k v (withBitOrder b s) = (regInsert k v s).map id (withBitOrder b) := by
  unfold regInsert
  rw [withBitOrder_regFind, withBitOrder_regRemaining]
  split
  · rfl
  · split <;> rfl

theorem appendSub_withBitOrder (k : Byte) (x : SubEntry) :
    appendSub k x (withBitOrder b s) = (appendSub k x s).map id (withBitOrder b) := by
  unfold appendSub
  rw [withBitOrder_regFind, withBitOrder_maxSubfunctions]
  split
  · rfl
  · split <;> rfl

theorem regRemove_withBitOrder (k : Byte) :
    regRemove k (withBitOrder b s) = (regRemove k s).map id (withBitOrder b) := by
  unfold regRemove
  rw [withBitOrder_regFind]
  split <;> rfl

/-! ### Completion and admission -/

theorem completeCodec_withBitOrder (n : Nat) (r : Except Status (List Byte)) :
    completeCodec n r (withBitOrder b s) = mapNext (withBitOrder b) (completeCodec n r s) := by
  cases r <;> rfl

theorem completeWith_withBitOrder {r r' : Status × State} (h : r' = r.map id (withBitOrder b)) :
    completeWith r' = mapNext (withBitOrder b) (completeWith r) := by
  subst h
  rfl

theorem completeOk_withBitOrder {r r' : Except Fault State} (h : r' = r.map (withBitOrder b)) :
    completeOk r' = mapNext (withBitOrder b) (completeOk r) := by
  subst h
  cases r <;> rfl

theorem whenLive_withBitOrder {r r' : Result} (h : r' = mapNext (withBitOrder b) r) :
    whenLive (withBitOrder b s) r' = mapNext (withBitOrder b) (whenLive s r) := by
  unfold whenLive
  rw [withBitOrder_live, h]
  split <;> rfl

theorem whenIdle_withBitOrder {r r' : Result} (h : r' = mapNext (withBitOrder b) r) :
    whenIdle (withBitOrder b s) r' = mapNext (withBitOrder b) (whenIdle s r) := by
  refine whenLive_withBitOrder b s ?_
  rw [withBitOrder_waiting, h]
  split <;> rfl

/-! ### Every command -/

theorem execInit_withBitOrder : execInit (withBitOrder b s) = mapNext (withBitOrder b) (execInit s) := by
  unfold execInit
  rw [withBitOrder_live, withBitOrder_bucketCount]
  split
  · rfl
  · split <;> rfl

theorem execFindService_withBitOrder (key : Byte) :
    execFindService key (withBitOrder b s) = mapNext (withBitOrder b) (execFindService key s) := by
  refine whenLive_withBitOrder b s ?_
  rw [withBitOrder_regFind]
  split <;> rfl

theorem execReadBuf_withBitOrder (off : Half) : execReadBuf off (withBitOrder b s) = mapNext (withBitOrder b) (execReadBuf off s) := by
  refine whenLive_withBitOrder b s ?_
  rw [withBitOrder_reasmCapacity, withBitOrder_reasmBuf]
  split <;> rfl

theorem execHandlerReturn_withBitOrder (c : Byte) :
    execHandlerReturn c (withBitOrder b s) = mapNext (withBitOrder b) (execHandlerReturn c s) := by
  refine whenLive_withBitOrder b s ?_
  rw [withBitOrder_dispState]
  split
  · rfl
  · exact completeOk_withBitOrder b (serviceReturned_withBitOrder b s c)
  · exact completeOk_withBitOrder b (congrArg Except.ok (subfunctionReturned_withBitOrder b s c))

/-- R62: a command under another bit order is the same command, with its next state under that bit order. -/
theorem exec_withBitOrder (i : Instr) : exec i (withBitOrder b s) = mapNext (withBitOrder b) (exec i s) := by
  cases i with
  | packSf | unpackSf | packFf | unpackFf | packCf | unpackCf | unpackFc => exact completeCodec_withBitOrder b s _ _
  | packFc | reservedOpcode => rfl
  | frameSf => exact whenLive_withBitOrder b s (completeOk_withBitOrder b (congrArg Except.ok (intakeSingle_withBitOrder b s _)))
  | frameFf => exact whenLive_withBitOrder b s (completeOk_withBitOrder b (congrArg Except.ok (intakeFirst_withBitOrder b s _)))
  | frameCf => exact whenLive_withBitOrder b s (completeOk_withBitOrder b (intakeConsecutive_withBitOrder b s _))
  | frameFc | frameReserved | frameReservedHi | tick | readState => exact whenLive_withBitOrder b s rfl
  | registerService => exact whenIdle_withBitOrder b s (completeWith_withBitOrder b (regInsert_withBitOrder b s _ _))
  | registerSubfunction => exact whenIdle_withBitOrder b s (completeWith_withBitOrder b (appendSub_withBitOrder b s _ _))
  | findService key => exact execFindService_withBitOrder b s key
  | removeService => exact whenIdle_withBitOrder b s (completeWith_withBitOrder b (regRemove_withBitOrder b s _))
  | init => exact execInit_withBitOrder b s
  | delete => exact whenIdle_withBitOrder b s rfl
  | receiveFrame f => exact whenLive_withBitOrder b s (completeOk_withBitOrder b (receive_withBitOrder b s f))
  | dispatch => exact whenIdle_withBitOrder b s (completeOk_withBitOrder b (dispatchRequest_withBitOrder b s))
  | handlerReturn c => exact execHandlerReturn_withBitOrder b s c
  | readBuf off => exact execReadBuf_withBitOrder b s off
  | respondPositive => exact whenLive_withBitOrder b s (completeWith_withBitOrder b (respondPositive_withBitOrder b s))
  | respondNegative => exact whenLive_withBitOrder b s (completeWith_withBitOrder b (respondNegative_withBitOrder b s _))

end

/-- Settles O57: the outcome under the other bit order is the outcome itself, its next state under that bit order. -/
theorem bitOrderChangesNothing : Obligations.BitOrderChangesNothing := by
  intro i s b
  have commutes : exec i { s with cfg := { s.cfg with bitOrder := b } } = mapNext (withBitOrder b) (exec i s) := exec_withBitOrder b s i
  refine ⟨fun t h => ?_, fun k h => ?_, fun r h => ?_⟩ <;> rw [commutes, h] <;> rfl

end Sys2Proof.Machine
end

section
/-! PROOFS. O1, O2, O3, O4, O5: the decoder against the encoder, command packet by command packet and frame kind by frame kind
(spec 30_encoding.md R80 to R85, R88, R91, R92, R94, R95). A reader of operands accepts exactly the operand bytes the encoder writes. -/

namespace Sys2Proof

/-! ### Wire frames -/

/-- R85: a FlowControl frame is the layout of its own fields. -/
theorem flowControl_self {f : Frame} (h : f.typeNibble = 3) : Frame.flowControl f.kindNibble f.f1 f.f2 f.tail5 = f := by
  rw [Frame.flowControl, ← h]
  exact ofPci_self f

/-- R88: the two rows of the reserved type nibbles. -/
theorem decodeFrame_of_reserved {f : Frame} (h : 4 ≤ f.typeNibble.toNat) :
    decodeFrame f = if f.typeNibble.toNat ≤ 7 then .frameReserved f.typeNibble f.kindNibble f.tail7
      else .frameReservedHi f.typeNibble f.kindNibble f.tail7 := by
  have row := decodeFrame_reserved f.typeNibble f.kindNibble f.tail7 h
  rwa [ofPci_self] at row

/-- R81: the layout of each kind puts the frame's own fields back in their places. -/
theorem encode_decodeFrame (f : Frame) : encode (decodeFrame f) = .wire f := by
  rcases typeNibble_cases f with h | h | h | h | h
  · rw [decodeFrame_single h, encode, single_self h]
  · rw [decodeFrame_first h, encode, first_self h]
  · rw [decodeFrame_consecutive h, encode, consecutive_self h]
  · rw [decodeFrame_flowControl h, encode, flowControl_self h]
  · rw [decodeFrame_of_reserved h]
    split <;> exact congrArg Input.wire (ofPci_self f)

theorem wf_decodeFrame (f : Frame) : (decodeFrame f).wf = true := by
  rcases typeNibble_cases f with h | h | h | h | h
  · rw [decodeFrame_single h]; rfl
  · rw [decodeFrame_first h]; rfl
  · rw [decodeFrame_consecutive h]; rfl
  · rw [decodeFrame_flowControl h]; rfl
  · rw [decodeFrame_of_reserved h]
    split
    · next low => simp [Instr.wf, h, low]
    · next high => simp only [Instr.wf, decide_eq_true_eq]; omega

/-! ### The classification of a frame that has a kind's layout -/

theorem decodeFrame_singleFrame (len : Nibble) (p : Bytes7) : decodeFrame (Frame.single len p) = .frameSf len p := by
  rw [decodeFrame_single (typeNibble_single ..), kindNibble_single, tail7_single]

theorem decodeFrame_firstFrame (total : Len12) (p : Bytes6) : decodeFrame (Frame.first total p) = .frameFf total p := by
  rw [decodeFrame_first (typeNibble_first ..), total_first, tail6_first]

theorem decodeFrame_consecutiveFrame (sn : Nibble) (p : Bytes7) : decodeFrame (Frame.consecutive sn p) = .frameCf sn p := by
  rw [decodeFrame_consecutive (typeNibble_consecutive ..), kindNibble_consecutive, tail7_consecutive]

theorem decodeFrame_flowControlFrame (fs : Nibble) (bs st : Byte) (rsv : Bytes5) :
    decodeFrame (Frame.flowControl fs bs st rsv) = .frameFc fs bs st rsv := by
  rw [decodeFrame_flowControl (typeNibble_flowControl ..), kindNibble_flowControl]
  rfl

/-! ### A reader of operands on the bytes the encoder writes -/

theorem operandsFR_frame (mk : Frame → Instr) (f : Frame) : operandsFR mk f.toList = some (mk f) := rfl

theorem operandsSF_payload (mk : Byte → Bytes7 → Instr) (len : Byte) (p : Bytes7) :
    operandsSF mk (len :: p.toList) = some (mk len p) := rfl

theorem operandsCF_payload (mk : Byte → Byte → Bytes7 → Instr) (len sn : Byte) (p : Bytes7) :
    operandsCF mk (len :: sn :: p.toList) = some (mk len sn p) := rfl

theorem operandsFF_bytes (mk : Half → Bytes6 → Instr) (v : Half) (p : Bytes6) :
    operandsFF mk (bytes16 v ++ p.toList) = some (mk v p) :=
  congrArg (fun w => some (mk w p)) (be16_bytes v)

theorem operandsA_bytes (mk : Half → Instr) (v : Half) : operandsA mk (bytes16 v) = some (mk v) :=
  congrArg (fun w => some (mk w)) (be16_bytes v)

theorem operandsT_bytes (mk : Word → Instr) (v : Word) : operandsT mk (bytes32 v) = some (mk v) :=
  congrArg (fun w => some (mk w)) (be32_bytes v)

theorem operandsRS_bytes (mk : Byte → Byte → Byte → Word → Instr) (sid hflag hid : Byte) (v : Word) :
    operandsRS mk (sid :: hflag :: hid :: bytes32 v) = some (mk sid hflag hid v) :=
  congrArg (fun w => some (mk sid hflag hid w)) (be32_bytes v)

theorem operandsRSS_bytes (mk : Byte → Byte → Byte → Byte → Word → Instr) (sid ssid hflag hid : Byte) (v : Word) :
    operandsRSS mk (sid :: ssid :: hflag :: hid :: bytes32 v) = some (mk sid ssid hflag hid v) :=
  congrArg (fun w => some (mk sid ssid hflag hid w)) (be32_bytes v)

/-! ### The decoding of a command packet, by what its opcode selects -/

section
variable {op : Byte} {operands : List Byte} {read : List Byte → Option Instr} {i : Instr}

theorem decode_of_read (selected : commandOf op = some read) (accepted : read operands = some i) :
    decode (.command (op :: operands)) = .ok i := by
  simp [decode, decodeCommand, selected, accepted]

theorem decode_of_not_read (selected : commandOf op = some read) (rejected : read operands = none) :
    decode (.command (op :: operands)) = .error (.wrongLength op) := by
  simp [decode, decodeCommand, selected, rejected]

theorem decode_of_not_selected (h : commandOf op = none) (operands : List Byte) :
    decode (.command (op :: operands)) = .ok (.reservedOpcode op) := by
  simp [decode, decodeCommand, h]

/-- R94: a reserved opcode selects no command. -/
theorem commandOf_eq_none : commandOf op = none ↔ isReservedOpcode op = true := by
  rw [← commandOf_isNone, Option.isNone_iff_eq_none]

/-- R94: a reserved opcode determines no length. -/
theorem packetLength_eq_none : packetLength op = none ↔ isReservedOpcode op = true := by
  rw [← packetLength_isNone, Option.isNone_iff_eq_none]

/-- A packet that decodes was read as its opcode's command, or its opcode is a reserved one. -/
theorem decode_command_ok {packet : List Byte} (h : decode (.command packet) = .ok i) :
    ∃ op operands, packet = op :: operands ∧
      ((∃ read, commandOf op = some read ∧ read operands = some i) ∨ (commandOf op = none ∧ i = .reservedOpcode op)) := by
  cases packet with
  | nil => cases h
  | cons op operands =>
    refine ⟨op, operands, rfl, ?_⟩
    cases selected : commandOf op with
    | none =>
      rw [decode_of_not_selected selected] at h
      exact .inr ⟨rfl, (Except.ok.inj h).symm⟩
    | some read =>
      cases outcome : read operands with
      | none => rw [decode_of_not_read selected outcome] at h; cases h
      | some j =>
        rw [decode_of_read selected outcome] at h
        exact .inl ⟨read, rfl, outcome.trans (congrArg some (Except.ok.inj h))⟩

/-- R91, R92: what a command's reader reads is well-formed and encodes to the opcode and the operands it was read from. -/
theorem encode_of_read (selected : commandOf op = some read) (accepted : read operands = some i) :
    encode i = .command (op :: operands) ∧ i.wf = true := by
  unfold commandOf at selected
  split at selected
  case h_23 => cases selected
  all_goals
    rename_i opcode
    have word : BitVec.ofNat 8 op.toNat = op := by simp
    rw [opcode] at word
    subst word
    cases selected
  case h_1 => obtain ⟨_, _, rfl, rfl⟩ := operandsSF_some accepted; exact ⟨rfl, rfl⟩
  case h_3 => obtain ⟨_, _, rfl, rfl⟩ := operandsFF_some accepted; exact ⟨rfl, rfl⟩
  case h_5 => obtain ⟨_, _, _, rfl, rfl⟩ := operandsCF_some accepted; exact ⟨rfl, rfl⟩
  case h_7 => obtain ⟨_, _, _, rfl, rfl⟩ := operandsFC_some accepted; exact ⟨rfl, rfl⟩
  case h_9 => obtain ⟨_, _, _, _, rfl, rfl⟩ := operandsRS_some accepted; exact ⟨rfl, rfl⟩
  case h_10 => obtain ⟨_, _, _, _, _, rfl, rfl⟩ := operandsRSS_some accepted; exact ⟨rfl, rfl⟩
  case h_16 => obtain ⟨_, rfl, rfl⟩ := operandsT_some accepted; exact ⟨rfl, rfl⟩
  case h_20 => obtain ⟨_, rfl, rfl⟩ := operandsA_some accepted; exact ⟨rfl, rfl⟩
  case h_2 | h_4 | h_6 | h_8 | h_15 => obtain ⟨_, rfl, rfl⟩ := operandsFR_some accepted; exact ⟨rfl, rfl⟩
  case h_11 | h_12 | h_18 | h_22 => obtain ⟨_, rfl, rfl⟩ := operandsByte_some accepted; exact ⟨rfl, rfl⟩
  case h_13 | h_14 | h_17 | h_19 | h_21 => obtain ⟨rfl, rfl⟩ := operandsN_some accepted; exact ⟨rfl, rfl⟩

end

/-! ### Any input -/

/-- R88, R94: the decoder makes a reserved row from a reserved type nibble or opcode alone. -/
theorem wf_of_decode {x : Input} {i : Instr} (h : decode x = .ok i) : i.wf = true := by
  cases x with
  | wire f => exact Except.ok.inj h ▸ wf_decodeFrame f
  | command packet =>
    obtain ⟨op, operands, rfl, ⟨read, selected, accepted⟩ | ⟨reserved, rfl⟩⟩ := decode_command_ok h
    · exact (encode_of_read selected accepted).2
    · exact commandOf_eq_none.1 reserved

/-- R95: a packet decodes when it has the length of its opcode, and is rejected by name when it has another. -/
theorem decode_by_length {op : Byte} {n : Nat} (h : packetLength op = some n) (operands : List Byte) :
    (operands.length + 1 ≠ n → decode (.command (op :: operands)) = .error (.wrongLength op)) ∧
    (operands.length + 1 = n → ∃ i, decode (.command (op :: operands)) = .ok i) := by
  cases selected : commandOf op with
  | none =>
    have none : packetLength op = none := packetLength_eq_none.2 (commandOf_eq_none.1 selected)
    cases none.symm.trans h
  | some read =>
    obtain ⟨m, hm, accepts⟩ := commandOf_length selected operands
    obtain rfl : m = n := Option.some.inj (hm.symm.trans h)
    refine ⟨fun other => decode_of_not_read selected ?_, fun same => ?_⟩
    · simpa [other] using accepts
    · obtain ⟨i, accepted⟩ := Option.isSome_iff_exists.1 (accepts.trans (decide_eq_true same))
      exact ⟨i, decode_of_read selected accepted⟩

/-! ### The statements -/

/-- Settles O1, row by row: a wire row by the fields of its layout, a command by its reader on the operand bytes the encoder writes. -/
theorem decodeOfEncodeIsIdentity : Obligations.DecodeOfEncodeIsIdentity := by
  intro i wf
  cases i with
  | frameSf len p => exact congrArg Except.ok (decodeFrame_singleFrame len p)
  | frameFf total p => exact congrArg Except.ok (decodeFrame_firstFrame total p)
  | frameCf sn p => exact congrArg Except.ok (decodeFrame_consecutiveFrame sn p)
  | frameFc fs bs st rsv => exact congrArg Except.ok (decodeFrame_flowControlFrame fs bs st rsv)
  | frameReserved t lo p =>
    simp only [Instr.wf, Bool.and_eq_true, decide_eq_true_eq] at wf
    obtain ⟨reserved, low⟩ := wf
    exact congrArg Except.ok ((decodeFrame_reserved t lo p reserved).trans (if_pos low))
  | frameReservedHi t lo p =>
    simp only [Instr.wf, decide_eq_true_eq] at wf
    have reserved : 4 ≤ t.toNat := by omega
    exact congrArg Except.ok ((decodeFrame_reserved t lo p reserved).trans (if_neg (by omega)))
  | packSf => exact decode_of_read rfl (operandsSF_payload ..)
  | packFf => exact decode_of_read rfl (operandsFF_bytes ..)
  | packCf => exact decode_of_read rfl (operandsCF_payload ..)
  | unpackSf | unpackFf | unpackCf | unpackFc | receiveFrame => exact decode_of_read rfl (operandsFR_frame ..)
  | registerService => exact decode_of_read rfl (operandsRS_bytes ..)
  | registerSubfunction => exact decode_of_read rfl (operandsRSS_bytes ..)
  | tick => exact decode_of_read rfl (operandsT_bytes ..)
  | readBuf => exact decode_of_read rfl (operandsA_bytes ..)
  | packFc | findService | removeService | init | delete | dispatch | handlerReturn | readState | respondPositive | respondNegative =>
    exact decode_of_read rfl rfl
  | reservedOpcode op => exact decode_of_not_selected (commandOf_eq_none.2 wf) []

/-- Settles O2: a packet that decodes to no reserved opcode was read by the reader of its opcode's command. -/
theorem encodeOfDecodeIsIdentity : Obligations.EncodeOfDecodeIsIdentity := by
  refine ⟨fun packet i h notReserved => ?_, encode_decodeFrame, fun x i => wf_of_decode⟩
  obtain ⟨op, operands, rfl, ⟨read, selected, accepted⟩ | ⟨_, rfl⟩⟩ := decode_command_ok h
  · exact (encode_of_read selected accepted).1
  · exact absurd rfl (notReserved op)

/-- Settles O4: an opcode that decodes to RESERVED_OPCODE is reserved because whatever decodes is well-formed. -/
theorem reservedAndMalformedPacketsRejected : Obligations.ReservedAndMalformedPacketsRejected :=
  ⟨fun _ rest => ⟨wf_of_decode, fun h => decode_of_not_selected (commandOf_eq_none.2 h) rest⟩, fun _ _ => rfl,
    fun _ => packetLength_eq_none, fun _ rest _ h => decode_by_length h rest, rfl⟩

/-- Settles O5: the obligation's `F[0] / 16` is the frame's type nibble. -/
theorem framesClassifiedByTypeNibble : Obligations.FramesClassifiedByTypeNibble := by
  intro f
  have kind {n : Nibble} (h : f.typeNibble.toNat = n.toNat) : f.typeNibble = n := BitVec.eq_of_toNat_eq h
  rw [← typeNibble_toNat]
  refine ⟨fun h => decodeFrame_single (kind h), fun h => ⟨f.total, total_toNat f, decodeFrame_first (kind h)⟩,
    fun h => decodeFrame_consecutive (kind h), fun h => decodeFrame_flowControl (kind h), fun reserved low => ?_, fun high => ?_⟩
  · exact (decodeFrame_of_reserved reserved).trans (if_pos low)
  · exact (decodeFrame_of_reserved (by omega)).trans (if_neg (by omega))

/-- Settles O3: each word is the encoding of its instruction. -/
theorem specWordsDecode : Obligations.SpecWordsDecode := by
  have word {x : Input} {i : Instr} (h : encode i = x) (wf : i.wf = true) : decode x = .ok i := h ▸ decodeOfEncodeIsIdentity i wf
  exact ⟨word rfl rfl, word rfl rfl, word rfl rfl, word rfl rfl, word rfl rfl, word rfl rfl, word rfl rfl, word rfl rfl⟩

end Sys2Proof
end

section
/-! PROOFS. O25: bulk registration (spec 30_encoding.md R99, 41_registry.md R167, R168). A bulk is a run of commands that goes on while the last
status is OK; a single registration completes on an idle engine and loses nothing that was registered. -/

namespace Sys2Proof.Machine

/-! ### A run of commands that goes on while the last status is OK -/

/-- R99: the commands in turn, up to and including the first whose status is not OK. -/
def runWhileOk : List (State → Result) → State → Result
  | [], s => .next s
  | c :: cs, s =>
    match c s with
    | .next t => if lastOk t then runWhileOk cs t else .next t
    | r => r

theorem runWhileOk_of_next {c : State → Result} {s t : State} (h : c s = .next t) (cs : List (State → Result)) :
    runWhileOk (c :: cs) s = if lastOk t then runWhileOk cs t else .next t := by
  simp [runWhileOk, h]

theorem runWhileOk_of_fault {c : State → Result} {s : State} {k : Fault} (h : c s = .fault k) (cs : List (State → Result)) :
    runWhileOk (c :: cs) s = .fault k := by
  simp [runWhileOk, h]

/-- What every command of the list keeps, completing, the run keeps, completing. -/
theorem runWhileOk_keeps {P : State → Prop} {cs : List (State → Result)} (each : ∀ c ∈ cs, ∀ s, P s → ∃ t, c s = .next t ∧ P t)
    {s : State} (h : P s) : ∃ t, runWhileOk cs s = .next t ∧ P t := by
  induction cs generalizing s with
  | nil => exact ⟨s, rfl, h⟩
  | cons c cs ih =>
    obtain ⟨t, ht, kept⟩ := each c List.mem_cons_self s h
    rw [runWhileOk_of_next ht]
    split
    · exact ih (fun d hd => each d (List.mem_cons_of_mem c hd)) kept
    · exact ⟨t, rfl, kept⟩

/-- R320: the status OK is the byte 0. -/
theorem lastOk_of_result {s : State} {b : Byte} (h : s.trace.getLast? = some (.result [b])) : lastOk s = decide (b = 0x00) := by
  simp only [lastOk, h]
  rfl

/-! ### The two bulks are such runs -/

/-- The single command of a tuple of BULK_REGISTER_SERVICES. -/
def serviceCommand (x : ServiceTuple) : State → Result := execRegisterService x.sid x.hflag x.hid x.param

/-- The single command of a tuple of BULK_REGISTER_SUBFUNCTIONS. -/
def subCommand (sid : Byte) (x : SubTuple) : State → Result := execRegisterSubfunction sid x.ssid x.hflag x.hid x.param

theorem bulkRegisterServices_eq (l : List ServiceTuple) (s : State) : bulkRegisterServices l s = runWhileOk (l.map serviceCommand) s := by
  induction l generalizing s with
  | nil => rfl
  | cons x l ih =>
    simp only [bulkRegisterServices, ih]
    rfl

theorem bulkRegisterSubfunctions_eq (sid : Byte) (l : List SubTuple) (s : State) :
    bulkRegisterSubfunctions sid l s = runWhileOk (l.map (subCommand sid)) s := by
  induction l generalizing s with
  | nil => rfl
  | cons x l ih =>
    simp only [bulkRegisterSubfunctions, ih]
    rfl

/-! ### What a single registration keeps -/

/-- R162: an accepted entry is found under its key, and every other key finds what it found before. -/
theorem regFind_regInsert (k : Byte) (v : ServiceEntry) (s : State) (k' : Byte) :
    regFind k' (regInsert k v s).2 = if (regInsert k v s).1 = .ok ∧ k' = k then some v else regFind k' s := by
  rcases regInsert_cases k v s with ⟨_, e⟩ | ⟨_, _, e⟩ | ⟨_, _, e⟩
  · simp only [e, true_and]; exact find_put k k' v s.reg
  · simp [e]
  · simp only [e, true_and]; exact find_put k k' v s.reg

theorem regInsert_live (k : Byte) (v : ServiceEntry) (s : State) : (regInsert k v s).2.live = s.live := by
  rcases regInsert_cases k v s with ⟨_, e⟩ | ⟨_, _, e⟩ | ⟨_, _, e⟩ <;> rw [e]

theorem regInsert_dispState (k : Byte) (v : ServiceEntry) (s : State) : (regInsert k v s).2.dispState = s.dispState := by
  rcases regInsert_cases k v s with ⟨_, e⟩ | ⟨_, _, e⟩ | ⟨_, _, e⟩ <;> rw [e]

/-- The engine is live and waits for no handler, and every service of `s` is registered in `t`. -/
def KeepsServices (s t : State) : Prop :=
  t.live = true ∧ t.dispState = .idle ∧ ∀ k, (regFind k s).isSome = true → (regFind k t).isSome = true

/-- The engine is live and waits for no handler, and every entry of `s` stands in `t` with sub-functions appended at most. -/
def GrowsSubs (s t : State) : Prop :=
  t.live = true ∧ t.dispState = .idle ∧
    ∀ (k : Byte) (e : ServiceEntry), regFind k s = some e →
      ∃ new : List SubEntry, regFind k t = some { e with subs := e.subs ++ new }

theorem keepsServices_serviceCommand {s t : State} (h : KeepsServices s t) (x : ServiceTuple) :
    ∃ u, serviceCommand x t = .next u ∧ KeepsServices s u := by
  obtain ⟨live, idle, kept⟩ := h
  refine ⟨_, (whenIdle_of_idle live idle _).trans (completeWith_eq _), ?_, ?_, fun k registered => ?_⟩
  · rwa [emit_live, regInsert_live]
  · rwa [emit_dispState, regInsert_dispState]
  · rw [regFind_congr (emit_reg ..), regFind_regInsert]
    split
    · rfl
    · exact kept k registered

/-- R168: the appended sub-function stands after those its service had. -/
theorem growsSubs_appendSub {s t : State} (h : GrowsSubs s t) (k : Byte) (x : SubEntry) : GrowsSubs s (appendSub k x t).2 := by
  rcases appendSub_eq (s := t) k x with e | ⟨held, found, _, e⟩
  · rwa [e]
  · obtain ⟨live, idle, grown⟩ := h
    rw [e]
    refine ⟨by rwa [regInsert_live], by rwa [regInsert_dispState], fun k' first registered => ?_⟩
    obtain ⟨new, now⟩ := grown k' first registered
    rw [regFind_regInsert]
    split
    · next accepted =>
      obtain ⟨_, rfl⟩ := accepted
      obtain rfl := Option.some.inj (found.symm.trans now)
      exact ⟨new ++ [x], by simp⟩
    · exact ⟨new, now⟩

theorem growsSubs_subCommand {s t : State} (h : GrowsSubs s t) (sid : Byte) (x : SubTuple) :
    ∃ u, subCommand sid x t = .next u ∧ GrowsSubs s u := by
  have appended : GrowsSubs s (appendSub sid ⟨x.ssid, hasHandler x.hflag, x.hid, x.param⟩ t).2 := growsSubs_appendSub h _ _
  obtain ⟨live, idle, _⟩ := h
  exact ⟨_, (whenIdle_of_idle live idle _).trans (completeWith_eq _), appended⟩

/-! ### The statement -/

/-- Settles O25: both bulks are runs, and a run keeps what each of its commands keeps. -/
theorem bulkRegistrationKeepsEntries : Obligations.BulkRegistrationKeepsEntries := by
  refine ⟨fun _ => rfl, fun _ _ => rfl, fun x l s => ⟨fun u b h last => ?_, fun k h => ?_⟩,
    fun sid x l s => ⟨fun u b h last => ?_, fun k h => ?_⟩, fun l s live idle => ?_, fun sid l s live idle => ?_⟩
  · have command : serviceCommand x s = .next u := h
    simp only [bulkRegisterServices_eq, List.map_cons, runWhileOk_of_next command, lastOk_of_result last, decide_eq_true_eq]
  · have command : serviceCommand x s = .fault k := h
    rw [bulkRegisterServices_eq, List.map_cons, runWhileOk_of_fault command]
  · have command : subCommand sid x s = .next u := h
    simp only [bulkRegisterSubfunctions_eq, List.map_cons, runWhileOk_of_next command, lastOk_of_result last, decide_eq_true_eq]
  · have command : subCommand sid x s = .fault k := h
    rw [bulkRegisterSubfunctions_eq, List.map_cons, runWhileOk_of_fault command]
  · rw [bulkRegisterServices_eq]
    refine runWhileOk_keeps (P := KeepsServices s) (List.forall_mem_map.2 fun x _ t kept => ?_) ⟨live, idle, fun _ => id⟩
    exact keepsServices_serviceCommand kept x
  · rw [bulkRegisterSubfunctions_eq]
    refine runWhileOk_keeps (P := GrowsSubs s) (List.forall_mem_map.2 fun x _ t grown => ?_) ⟨live, idle, fun _ e h => ⟨[], by simpa⟩⟩
    exact growsSubs_subCommand grown sid x

end Sys2Proof.Machine
end

section
/-! PROOFS. O43: what is put on the transmit port (spec 30_encoding.md R87, 44_response.md R286). Every operation appends to the trace, and each
transmit attempt among what it appends is of the Flow-Control frame, a positive or a negative response. -/

namespace Sys2Proof.Machine

/-- R87: `t` has the trace of `s` and further events, whose transmit attempts are of the three kinds of frame. -/
def SendsOnly (s t : State) : Prop :=
  ∃ new : List Event, t.trace = s.trace ++ new ∧ ∀ f a, Event.tx f a ∈ new → transmittable f

theorem sendsOnly_of_trace_eq {s t : State} (h : t.trace = s.trace) : SendsOnly s t := ⟨[], by simpa using h, nofun⟩

theorem SendsOnly.trans {s t u : State} (h : SendsOnly s t) (h' : SendsOnly t u) : SendsOnly s u := by
  obtain ⟨new, e, sent⟩ := h
  obtain ⟨new', e', sent'⟩ := h'
  refine ⟨new ++ new', by rw [e', e, List.append_assoc], fun f a attempt => ?_⟩
  exact (List.mem_append.1 attempt).elim (sent f a) (sent' f a)

/-- Further writes that leave the trace alone. -/
theorem SendsOnly.of_trace_eq {s t u : State} (h : SendsOnly s t) (e : u.trace = t.trace) : SendsOnly s u :=
  h.trans (sendsOnly_of_trace_eq e)

/-- One more event, which is no attempt or is of the three kinds of frame. -/
theorem sendsOnly_of_event {s t : State} {e : Event} (h : t.trace = s.trace ++ [e]) (sent : ∀ f a, e = .tx f a → transmittable f) :
    SendsOnly s t :=
  ⟨[e], h, fun f a attempt => sent f a (List.mem_singleton.1 attempt).symm⟩

theorem sendsOnly_result (packet : List Byte) (s : State) : SendsOnly s (emit (.result packet) s) :=
  sendsOnly_of_event (emit_trace ..) nofun

theorem sendsOnly_callHandler (kind : HandlerKind) (hid : Byte) (param : Word) (s : State) :
    SendsOnly s (callHandler kind hid param s) :=
  sendsOnly_of_event (callHandler_trace ..) nofun

/-! ### The three kinds of frame -/

/-- R285. -/
theorem sendsOnly_transmit {f : Frame} (h : transmittable f) (s : State) : SendsOnly s (transmit f s).2 := by
  rcases transmit_cases f s with ⟨_, e⟩ | ⟨_, e⟩ <;> rw [e]
  · exact sendsOnly_of_trace_eq rfl
  · refine sendsOnly_of_event (by rw [emit_trace, takeAnswer_trace]) fun g a same => ?_
    cases same
    exact h

theorem sendsOnly_respondPositive (s : State) : SendsOnly s (respondPositive s).2 :=
  respondPositive_frame s ▸ sendsOnly_transmit (.inr (.inl ⟨_, _, rfl⟩)) s

theorem sendsOnly_respondNegative (c : Byte) (s : State) : SendsOnly s (respondNegative c s).2 :=
  respondNegative_frame c s ▸ sendsOnly_transmit (.inr (.inr ⟨_, _, rfl⟩)) s

theorem sendsOnly_translate (c : Byte) (s : State) : SendsOnly s (translate c s) := by
  unfold translate
  split
  · exact sendsOnly_respondPositive s
  · split
    · exact sendsOnly_of_trace_eq rfl
    · exact sendsOnly_respondNegative c s

/-! ### Intake -/

theorem sendsOnly_intakeSingle (f : Frame) (s : State) : SendsOnly s (intakeSingle f s) := by
  rcases intakeSingle_cases f s with ⟨_, e⟩ | ⟨_, e⟩ | ⟨_, _, _, _, e⟩
  · exact sendsOnly_of_trace_eq (congrArg State.trace e)
  · exact e ▸ sendsOnly_respondNegative _ s
  · exact sendsOnly_of_trace_eq (by rw [e])

theorem sendsOnly_abortRunning (s : State) : SendsOnly s (abortRunning s) := by
  unfold abortRunning
  split
  · exact (sendsOnly_respondNegative _ s).of_trace_eq (abort_trace _)
  · exact sendsOnly_of_trace_eq rfl

/-- R209: the Flow-Control frame, or the refusal of a message too long. -/
theorem sendsOnly_startReassembly (total : Len12) (p : Bytes6) (s : State) : SendsOnly s (startReassembly total p s) := by
  have marked : SendsOnly s { s with lastActivity := s.tick } := sendsOnly_of_trace_eq rfl
  rcases startReassembly_cases total p s with ⟨_, e⟩ | ⟨_, e⟩ <;> rw [e]
  · exact (marked.trans (sendsOnly_respondNegative _ _)).of_trace_eq (abort_trace _)
  · have latched := marked.of_trace_eq (latchFirst_trace total p _)
    exact (latched.trans (sendsOnly_transmit (.inl rfl) _)).of_trace_eq (startNcs_trace _)

theorem sendsOnly_intakeFirst (f : Frame) (s : State) : SendsOnly s (intakeFirst f s) := by
  rcases intakeFirst_cases f s with ⟨_, e⟩ | ⟨_, _, _, ⟨_, e⟩ | ⟨_, e⟩⟩
  · exact sendsOnly_of_trace_eq (congrArg State.trace e)
  · exact e ▸ (sendsOnly_abortRunning s).trans (sendsOnly_respondNegative _ _)
  · exact e ▸ (sendsOnly_abortRunning s).trans (sendsOnly_startReassembly _ _ _)

theorem acceptConsecutive_trace (p : Bytes7) (n : Nat) (s : State) : (acceptConsecutive p n s).trace = s.trace := by
  dsimp only [acceptConsecutive]
  split
  · rfl
  · split <;> rfl

theorem sendsOnly_intakeConsecutive {f : Frame} {s u : State} (h : intakeConsecutive f s = .ok u) : SendsOnly s u := by
  rcases intakeConsecutive_cases h with rfl | ⟨_, ⟨_, rfl⟩ | ⟨_, _, _, rfl⟩⟩
  · exact sendsOnly_of_trace_eq rfl
  · have aborted : SendsOnly s (abort { s with lastActivity := s.tick }) := sendsOnly_of_trace_eq rfl
    exact aborted.trans (sendsOnly_respondNegative _ _)
  · exact sendsOnly_of_trace_eq (acceptConsecutive_trace ..)

/-! ### Dispatch -/

theorem sendsOnly_subfunctionPhase {s u : State} (h : subfunctionPhase s = .ok u) : SendsOnly s u := by
  obtain ⟨_, _, ⟨_, rfl⟩ | ⟨_, _, ⟨_, rfl⟩ | ⟨_, rfl⟩⟩⟩ := subfunctionPhase_cases h
  · exact (sendsOnly_respondNegative _ s).of_trace_eq (finish_trace _)
  · exact sendsOnly_callHandler ..
  · exact sendsOnly_of_trace_eq (finish_trace s)

theorem sendsOnly_lookupRequest {s u : State} (h : lookupRequest s = .ok u) : SendsOnly s u := by
  have latched : SendsOnly s (latchDispatched s) := sendsOnly_of_trace_eq (latchDispatched_trace s)
  rcases lookupRequest_cases h with ⟨_, rfl⟩ | ⟨_, _, ⟨_, rfl⟩ | ⟨_, hu⟩⟩
  · exact (sendsOnly_respondNegative _ s).of_trace_eq (clearBuffers_trace _)
  · exact latched.trans (sendsOnly_callHandler ..)
  · exact latched.trans (sendsOnly_subfunctionPhase hu)

theorem sendsOnly_dispatchRequest {s u : State} (h : dispatchRequest s = .ok u) : SendsOnly s u := by
  have timed : SendsOnly s (timeouts s) := sendsOnly_of_trace_eq (timeouts_trace s)
  rcases dispatchRequest_cases h with ⟨_, rfl⟩ | ⟨_, _, rfl⟩ | ⟨_, _, hu⟩
  · exact timed
  · exact timed
  · exact (timed.of_trace_eq (takeRequest_trace _)).trans (sendsOnly_lookupRequest hu)

theorem sendsOnly_endCall_translate (c : Byte) (s : State) : SendsOnly s (endCall (translate c s)) :=
  (sendsOnly_translate c s).of_trace_eq (endCall_trace _)

theorem sendsOnly_serviceReturned {c : Byte} {s u : State} (h : serviceReturned c s = .ok u) : SendsOnly s u :=
  (sendsOnly_endCall_translate c s).trans (sendsOnly_subfunctionPhase h)

theorem sendsOnly_subfunctionReturned (c : Byte) (s : State) : SendsOnly s (subfunctionReturned c s) :=
  (sendsOnly_endCall_translate c s).of_trace_eq (finish_trace _)

/-! ### Registration writes no trace -/

theorem regInsert_trace (k : Byte) (v : ServiceEntry) (s : State) : (regInsert k v s).2.trace = s.trace := by
  rcases regInsert_cases k v s with ⟨_, e⟩ | ⟨_, _, e⟩ | ⟨_, _, e⟩ <;> rw [e]

theorem appendSub_trace (k : Byte) (x : SubEntry) (s : State) : (appendSub k x s).2.trace = s.trace := by
  rcases appendSub_eq (s := s) k x with e | ⟨_, _, _, e⟩
  · rw [e]
  · rw [e, regInsert_trace]

theorem regRemove_trace (k : Byte) (s : State) : (regRemove k s).2.trace = s.trace := by
  rcases regRemove_cases k s with ⟨_, e⟩ | ⟨_, e⟩ <;> rw [e]

/-! ### Every command -/

/-- Each way in which a command completes. -/
theorem sendsOnly_ran {i : Instr} {s u : State} {packet : List Byte} (ran : Ran i s packet u) : SendsOnly s u := by
  cases ran with
  | report | tick => exact sendsOnly_of_trace_eq rfl
  | respondNegative => exact sendsOnly_respondNegative _ s
  | respondPositive => exact sendsOnly_respondPositive s
  | single => exact sendsOnly_intakeSingle _ s
  | first => exact sendsOnly_intakeFirst _ s
  | consecutive _ _ _ hu => exact sendsOnly_intakeConsecutive hu
  | dispatch _ _ hu => exact sendsOnly_dispatchRequest hu
  | serviceReturned _ _ hu => exact sendsOnly_serviceReturned hu
  | subfunctionReturned => exact sendsOnly_subfunctionReturned _ s
  | registerService => exact sendsOnly_of_trace_eq (regInsert_trace ..)
  | registerSubfunction => exact sendsOnly_of_trace_eq (appendSub_trace ..)
  | removeService => exact sendsOnly_of_trace_eq (regRemove_trace ..)
  | delete => exact sendsOnly_of_trace_eq (tearDown_trace s)
  | init => exact sendsOnly_of_trace_eq (initialise_trace s)

/-- Settles O43: after what the command itself does, only its result packet is appended. -/
theorem onlyThreeKindsTransmitted : Obligations.OnlyThreeKindsTransmitted := by
  intro i s t h
  obtain ⟨packet, u, ran, rfl⟩ := exec_ran h
  exact (sendsOnly_ran ran).trans (sendsOnly_result packet u)

end Sys2Proof.Machine
end


section
/-! PROOFS. The layer under O10 to O18: the bytes of a frame layout, and each codec function by the outcome of its checks (spec 30_encoding.md R80 to
R85, 40_codec.md R121 to R128). -/

namespace Sys2Proof

/-! ### The number that concatenated bit fields hold -/

theorem append_toNat {n m : Nat} (x : BitVec n) (y : BitVec m) : (x ++ y).toNat = x.toNat * 2 ^ m + y.toNat := by
  rw [BitVec.toNat_append, ← Nat.shiftLeft_add_eq_or_of_lt y.isLt, Nat.shiftLeft_eq]

/-- R96. -/
theorem be16_toNat (h l : Byte) : (be16 h l).toNat = h.toNat * 256 + l.toNat := append_toNat h l

/-- R80: the PCI byte of two nibbles. -/
theorem pciByte_eq_ofNat (t k : Nibble) : (t ++ k : BitVec (4 + 4)) = BitVec.ofNat 8 (t.toNat * 16 + k.toNat) := by
  apply BitVec.eq_of_toNat_eq
  rw [append_toNat, BitVec.toNat_ofNat]
  omega

theorem loNibble_toNat_of_le {b : Byte} (h : b.toNat ≤ 15) : (loNibble b).toNat = b.toNat := by
  rw [loNibble_toNat]
  omega

theorem nibble_setWidth_toNat (k : Nibble) : (k.setWidth 8).toNat = k.toNat := BitVec.toNat_setWidth_of_le (by decide)

theorem total_setWidth_toNat (t : Len12) : (t.setWidth 16).toNat = t.toNat := BitVec.toNat_setWidth_of_le (by decide)

theorem loNibble_setWidth (k : Nibble) : loNibble (k.setWidth 8) = k := by
  apply BitVec.eq_of_toNat_eq
  rw [loNibble_toNat, nibble_setWidth_toNat]
  omega

/-- R83: a total of at most 4095 keeps its value in the twelve bits of an FF. -/
theorem total12_toNat {T : Half} (h : T.toNat ≤ 4095) : (T.extractLsb' 0 12).toNat = T.toNat := by
  rw [BitVec.extractLsb'_toNat, Nat.shiftRight_zero]
  omega

theorem total12_setWidth (t : Len12) : (t.setWidth 16).extractLsb' 0 12 = t := by
  apply BitVec.eq_of_toNat_eq
  have value := total_setWidth_toNat t
  rw [total12_toNat (by omega), value]

/-- R124: the two bytes UNPACK_FF returns for the total. -/
theorem bytes16_total (f : Frame) : bytes16 (f.total.setWidth 16) = [BitVec.ofNat 8 (f.f0.toNat % 16), f.f1] := by
  have widened : f.total.setWidth 16 = be16 (f.kindNibble.setWidth 8) f.f1 := by
    apply BitVec.eq_of_toNat_eq
    rw [be16_toNat, total_setWidth_toNat, nibble_setWidth_toNat, total_toNat, kindNibble_toNat]
  rw [widened, bytes16_be16, kindNibble_byte]

/-- The obligations' `F[0] / 16` against the type nibble. -/
theorem typeNibble_eq (f : Frame) (n : Nibble) : f.typeNibble = n ↔ f.f0.toNat / 16 = n.toNat :=
  not_iff_not.1 (typeNibble_ne f n)

/-! ### The bytes of a frame layout -/

theorem toList_ofPci (t k : Nibble) (p : Bytes7) :
    (Frame.ofPci t k p).toList = BitVec.ofNat 8 (t.toNat * 16 + k.toNat) :: p.toList :=
  congrArg (· :: p.toList) (pciByte_eq_ofNat t k)

/-- R82. -/
theorem toList_single {len : Byte} (h : len.toNat ≤ 15) (p : Bytes7) : (Frame.single (loNibble len) p).toList = len :: p.toList := by
  rw [Frame.single, toList_ofPci, loNibble_toNat_of_le h]
  simp

/-- R83. -/
theorem toList_first {T : Half} (h : T.toNat ≤ 4095) (p : Bytes6) :
    (Frame.first (T.extractLsb' 0 12) p).toList =
      [BitVec.ofNat 8 (0x10 + T.toNat / 256), BitVec.ofNat 8 (T.toNat % 256)] ++ p.toList := by
  have high : ((T.extractLsb' 0 12).extractLsb' 8 4).toNat = T.toNat / 256 := by
    rw [BitVec.extractLsb'_toNat, total12_toNat h, Nat.shiftRight_eq_div_pow]
    omega
  have low : (T.extractLsb' 0 12).extractLsb' 0 8 = BitVec.ofNat 8 (T.toNat % 256) := by
    apply BitVec.eq_of_toNat_eq
    rw [BitVec.extractLsb'_toNat, total12_toNat h]
    simp
  rw [Frame.first, toList_ofPci, high, low]
  rfl

/-- R84. -/
theorem toList_consecutive {sn : Byte} (h : sn.toNat ≤ 15) (p : Bytes7) :
    (Frame.consecutive (loNibble sn) p).toList = BitVec.ofNat 8 (0x20 + sn.toNat) :: p.toList := by
  rw [Frame.consecutive, toList_ofPci, loNibble_toNat_of_le h]
  rfl

/-! ### The payload bytes -/

theorem Bytes7.toList_injective : Function.Injective Bytes7.toList := by
  rintro ⟨⟩ ⟨⟩ h
  simpa [Bytes7.toList] using h

namespace Machine

/-- R121, R125: `p[0..n-1] ++ zeros(7 - n)`. -/
theorem toList_keepBytes {n : Nat} (h : n ≤ 7) (p : Bytes7) :
    (keepBytes n p).toList = p.toList.take n ++ List.replicate (7 - n) 0 := by
  interval_cases n <;> rfl

/-- R129: bytes that are zero from place `n` on are kept as they stand. -/
theorem keepBytes_eq_self {n : Nat} (h : n ≤ 7) {p : Bytes7} (zero : p.toList = p.toList.take n ++ List.replicate (7 - n) 0) :
    keepBytes n p = p :=
  Bytes7.toList_injective ((toList_keepBytes h p).trans zero.symm)

/-! ### The codec functions, by the outcome of their checks -/

section packers
variable {len sn : Byte} {T : Half}

theorem packable_iff : packable len = true ↔ 1 ≤ len.toNat ∧ len.toNat ≤ 7 := by
  simp [packable]

/-- R121. -/
theorem packSingle_of_packable (h : packable len = true) (p : Bytes7) :
    packSingle len p = .ok (Frame.single (loNibble len) (keepBytes len.toNat p)) := if_pos h

theorem packSingle_of_not_packable (h : ¬ packable len = true) (p : Bytes7) : packSingle len p = .error .lengthError := if_neg h

/-- R123. -/
theorem packFirst_of_total (low : 7 < T.toNat) (high : T.toNat ≤ 4095) (p : Bytes6) :
    packFirst T p = .ok (Frame.first (T.extractLsb' 0 12) p) := if_pos ⟨low, high⟩

theorem packFirst_of_not_total (h : T.toNat ≤ 7 ∨ 4096 ≤ T.toNat) (p : Bytes6) : packFirst T p = .error .lengthError :=
  if_neg (by omega)

/-- R125: the length is tested first. -/
theorem packConsecutive_of_not_packable (h : ¬ packable len = true) (sn : Byte) (p : Bytes7) :
    packConsecutive len sn p = .error .lengthError := by
  simp [packConsecutive, h]

theorem packConsecutive_of_sn (h : packable len = true) (large : 15 < sn.toNat) (p : Bytes7) :
    packConsecutive len sn p = .error .paramError := by
  simp [packConsecutive, h, large]

theorem packConsecutive_of_packable (h : packable len = true) (small : sn.toNat ≤ 15) (p : Bytes7) :
    packConsecutive len sn p = .ok (Frame.consecutive (loNibble sn) (keepBytes len.toNat p)) := by
  simp [packConsecutive, h, Nat.not_lt.2 small]

end packers

section unpackers
variable {f : Frame}

/-- R122: the type is tested first. -/
theorem unpackSingle_of_other (h : f.typeNibble ≠ 0) : unpackSingle f = .error .typeError := if_pos h

theorem unpackSingle_of_long (h : f.typeNibble = 0) (long : 7 < f.kindNibble.toNat) : unpackSingle f = .error .lengthError := by
  simp [unpackSingle, h, long]

theorem unpackSingle_of_type (h : f.typeNibble = 0) (short : f.kindNibble.toNat ≤ 7) :
    unpackSingle f = .ok (f.kindNibble, f.tail7) := by
  simp [unpackSingle, h, Nat.not_lt.2 short]

/-- R124: the type is tested first. -/
theorem unpackFirst_of_other (h : f.typeNibble ≠ 1) : unpackFirst f = .error .typeError := if_pos h

theorem unpackFirst_of_short (h : f.typeNibble = 1) (short : f.total.toNat < 8) : unpackFirst f = .error .lengthError := by
  simp [unpackFirst, h, short]

theorem unpackFirst_of_type (h : f.typeNibble = 1) (long : 8 ≤ f.total.toNat) : unpackFirst f = .ok (f.total, f.tail6) := by
  simp [unpackFirst, h, Nat.not_lt.2 long]

/-- R128. -/
theorem unpackFlowControl_of_other (h : f.typeNibble ≠ 3) : unpackFlowControl f = .error .typeError := if_pos h

theorem unpackFlowControl_of_type (h : f.typeNibble = 3) : unpackFlowControl f = .ok (f.kindNibble, f.f1, f.f2) :=
  if_neg (not_not.2 h)

/-! ### A frame that unpacks is the layout of what it unpacks to -/

theorem eq_single_of_unpackSingle {l : Nibble} {p : Bytes7} (h : unpackSingle f = .ok (l, p)) :
    f = Frame.single l p ∧ l.toNat ≤ 7 := by
  by_cases type : f.typeNibble = 0
  · by_cases short : f.kindNibble.toNat ≤ 7
    · rw [unpackSingle_of_type type short] at h
      cases h
      exact ⟨(single_self type).symm, short⟩
    · rw [unpackSingle_of_long type (by omega)] at h
      cases h
  · rw [unpackSingle_of_other type] at h
    cases h

theorem eq_first_of_unpackFirst {t : Len12} {p : Bytes6} (h : unpackFirst f = .ok (t, p)) :
    f = Frame.first t p ∧ 8 ≤ t.toNat := by
  by_cases type : f.typeNibble = 1
  · by_cases long : 8 ≤ f.total.toNat
    · rw [unpackFirst_of_type type long] at h
      cases h
      exact ⟨(first_self type).symm, long⟩
    · rw [unpackFirst_of_short type (by omega)] at h
      cases h
  · rw [unpackFirst_of_other type] at h
    cases h

theorem eq_consecutive_of_unpackConsecutive {k : Nibble} {p : Bytes7} (h : unpackConsecutive f = .ok (k, p)) :
    f = Frame.consecutive k p := by
  by_cases type : f.typeNibble = 2
  · rw [unpackConsecutive_of_type type] at h
    cases h
    exact (consecutive_self type).symm
  · rw [unpackConsecutive_of_other type] at h
    cases h

/-- R129: the reserved bytes are not among what an FC unpacks to. -/
theorem eq_flowControl_of_unpackFlowControl {k : Nibble} {bs st : Byte} (h : unpackFlowControl f = .ok (k, bs, st)) :
    f = Frame.flowControl k bs st f.tail5 := by
  by_cases type : f.typeNibble = 3
  · rw [unpackFlowControl_of_type type] at h
    cases h
    exact (flowControl_self type).symm
  · rw [unpackFlowControl_of_other type] at h
    cases h

end unpackers

end Machine

end Sys2Proof
end

section
/-! PROOFS. O10 to O17: the eight codec commands (spec 40_codec.md R120 to R128). Each completes in every state with the outputs of its codec
function, or with the status of the check that failed and zeros. -/

namespace Sys2Proof.Machine

/-! ### The completion of a codec command -/

section completion
variable {α : Type} {r : Except Status α} {outs : α → List Byte}

theorem completeCodec_of_ok {a : α} {bytes : List Byte} (passed : r = .ok a) (out : outs a = bytes) (n : Nat) (s : State) :
    completeCodec n (r.map outs) s = .next (emit (.result (0x00 :: bytes)) s) := by
  rw [passed, ← out]
  rfl

theorem completeCodec_of_error {st : Status} (failed : r = .error st) (h : st ≠ .ok) (n : Nat) (s : State) :
    completeCodec n (r.map outs) s = .next (emit (.result (st.code :: List.replicate n 0)) s) := by
  rw [failed]
  simp [completeCodec, complete, Except.map, h]

end completion

/-! ### The statements -/

/-- Settles O10, by whether the length is one that packs. -/
theorem packSfResult : Obligations.PackSfResult := by
  refine fun len p s => ⟨decode_of_read rfl rfl, fun low high => ?_, fun other => ?_⟩
  · have packed := packSingle_of_packable (packable_iff.2 ⟨low, high⟩) p
    refine completeCodec_of_ok packed ?_ 8 s
    rw [toList_single (by omega), toList_keepBytes high]
    rfl
  · have failed := packSingle_of_not_packable (len := len) (by rw [packable_iff]; omega) p
    exact completeCodec_of_error failed nofun 8 s

/-- Settles O11: the type's check, then the length's, on the nibbles of `F[0]`. -/
theorem unpackSfResult : Obligations.UnpackSfResult := by
  refine fun f s => ⟨decode_of_read rfl rfl, ?_⟩
  split
  case isTrue other => exact completeCodec_of_error (unpackSingle_of_other ((typeNibble_ne f 0).2 other)) nofun 8 s
  case isFalse type =>
    have single : f.typeNibble = 0 := (typeNibble_eq f 0).2 (not_not.1 type)
    rw [← kindNibble_toNat]
    split
    case isTrue long => exact completeCodec_of_error (unpackSingle_of_long single long) nofun 8 s
    case isFalse short =>
      refine completeCodec_of_ok (unpackSingle_of_type single (Nat.not_lt.1 short)) ?_ 8 s
      rw [kindNibble_byte, kindNibble_toNat]
      rfl

/-- Settles O12, by whether the total is one that packs. -/
theorem packFfResult : Obligations.PackFfResult := by
  intro h l total p s assembled
  obtain rfl : total = be16 h l := BitVec.eq_of_toNat_eq (assembled.trans (be16_toNat h l).symm)
  refine ⟨decode_of_read rfl rfl, fun low high => ?_, fun other => ?_⟩
  · exact completeCodec_of_ok (packFirst_of_total low high p) (toList_first high p) 8 s
  · exact completeCodec_of_error (packFirst_of_not_total other p) nofun 8 s

/-- Settles O13: the type's check, then that of the 12-bit total. -/
theorem unpackFfResult : Obligations.UnpackFfResult := by
  refine fun f s => ⟨decode_of_read rfl rfl, ?_⟩
  split
  case isTrue other => exact completeCodec_of_error (unpackFirst_of_other ((typeNibble_ne f 1).2 other)) nofun 8 s
  case isFalse type =>
    have first : f.typeNibble = 1 := (typeNibble_eq f 1).2 (not_not.1 type)
    rw [← total_toNat]
    split
    case isTrue short => exact completeCodec_of_error (unpackFirst_of_short first short) nofun 8 s
    case isFalse long =>
      refine completeCodec_of_ok (unpackFirst_of_type first (Nat.not_lt.1 long)) ?_ 8 s
      rw [bytes16_total]
      rfl

/-- Settles O14: the length's check, then the sequence number's. -/
theorem packCfResult : Obligations.PackCfResult := by
  refine fun len sn p s => ⟨decode_of_read rfl rfl, ?_⟩
  split
  case isTrue other =>
    have unfit : ¬ packable len = true := by rw [packable_iff]; omega
    exact completeCodec_of_error (packConsecutive_of_not_packable unfit sn p) nofun 8 s
  case isFalse fits =>
    have fit : packable len = true := by rw [packable_iff]; omega
    split
    case isTrue large => exact completeCodec_of_error (packConsecutive_of_sn fit large p) nofun 8 s
    case isFalse small =>
      have small : sn.toNat ≤ 15 := Nat.not_lt.1 small
      refine completeCodec_of_ok (packConsecutive_of_packable fit small p) ?_ 8 s
      rw [toList_consecutive small, toList_keepBytes (packable_iff.1 fit).2]
      rfl

/-- Settles O15: R126's second check, of the sequence number, passes for every frame. -/
theorem unpackCfResult : Obligations.UnpackCfResult := by
  refine fun f s => ⟨decode_of_read rfl rfl, fun other => ?_, fun type => ?_⟩
  · exact completeCodec_of_error (unpackConsecutive_of_other ((typeNibble_ne f 2).2 other)) nofun 8 s
  · have consecutive : f.typeNibble = 2 := (typeNibble_eq f 2).2 type
    refine completeCodec_of_ok (unpackConsecutive_of_type consecutive) ?_ 8 s
    rw [kindNibble_byte]
    rfl

/-- Settles O16: R127 has no check. -/
theorem packFcResult : Obligations.PackFcResult := by
  refine fun bs st fs s => ⟨decode_of_read rfl rfl, ?_⟩
  have layout : (packFlowControl bs st fs).toList = [BitVec.ofNat 8 (0x30 + fs.toNat % 16), bs, st, 0, 0, 0, 0, 0] := by
    rw [packFlowControl, Frame.flowControl, toList_ofPci, loNibble_toNat]
    rfl
  rw [exec, execPackFc, layout]
  rfl

/-- Settles O17: R128 checks the type alone. -/
theorem unpackFcResult : Obligations.UnpackFcResult := by
  refine fun f s => ⟨decode_of_read rfl rfl, ?_⟩
  split
  case isTrue other => exact completeCodec_of_error (unpackFlowControl_of_other ((typeNibble_ne f 3).2 other)) nofun 3 s
  case isFalse type =>
    have flow : f.typeNibble = 3 := (typeNibble_eq f 3).2 (not_not.1 type)
    refine completeCodec_of_ok (unpackFlowControl_of_type flow) ?_ 3 s
    rw [kindNibble_byte]

end Sys2Proof.Machine
end

section
/-! PROOFS. O18: the round-trip laws of the codec (spec 40_codec.md R129). What was packed is a frame of its kind's layout, which unpacks to its own
fields; and a frame that unpacks is the layout of the fields it unpacks to. -/

namespace Sys2Proof.Machine

/-! ### Unpacking what was packed -/

theorem unpackSingle_packed {n : Byte} (low : 1 ≤ n.toNat) (high : n.toNat ≤ 7) (p : Bytes7) :
    ∃ F, packSingle n p = .ok F ∧ unpackSingle F = .ok (loNibble n, keepBytes n.toNat p) := by
  have length : (loNibble n).toNat = n.toNat := loNibble_toNat_of_le (by omega)
  refine ⟨_, packSingle_of_packable (packable_iff.2 ⟨low, high⟩) p, ?_⟩
  rw [unpackSingle_single, if_neg (by omega)]

theorem unpackFirst_packed {T : Half} (low : 8 ≤ T.toNat) (high : T.toNat ≤ 4095) (p : Bytes6) :
    ∃ F, packFirst T p = .ok F ∧ unpackFirst F = .ok (T.extractLsb' 0 12, p) := by
  have total : (T.extractLsb' 0 12).toNat = T.toNat := total12_toNat high
  refine ⟨_, packFirst_of_total low high p, ?_⟩
  rw [unpackFirst_first, if_neg (by omega)]

theorem unpackConsecutive_packed {n sn : Byte} (low : 1 ≤ n.toNat) (high : n.toNat ≤ 7) (small : sn.toNat ≤ 15) (p : Bytes7) :
    ∃ F, packConsecutive n sn p = .ok F ∧ unpackConsecutive F = .ok (loNibble sn, keepBytes n.toNat p) :=
  ⟨_, packConsecutive_of_packable (packable_iff.2 ⟨low, high⟩) small p, unpackConsecutive_consecutive ..⟩

theorem unpackFlowControl_packed (bs st fs : Byte) : unpackFlowControl (packFlowControl bs st fs) = .ok (loNibble fs, bs, st) := by
  rw [packFlowControl, unpackFlowControl_of_type (typeNibble_flowControl ..), kindNibble_flowControl]
  rfl

/-! ### Packing what was unpacked -/

section unpacked
variable {F : Frame} {k : Nibble}

theorem packSingle_unpacked {p : Bytes7} (h : unpackSingle F = .ok (k, p)) (low : 1 ≤ k.toNat)
    (zero : p.toList = p.toList.take k.toNat ++ List.replicate (7 - k.toNat) 0) : packSingle (k.setWidth 8) p = .ok F := by
  obtain ⟨rfl, high⟩ := eq_single_of_unpackSingle h
  have length : (k.setWidth 8).toNat = k.toNat := nibble_setWidth_toNat k
  rw [packSingle_of_packable (packable_iff.2 (length ▸ ⟨low, high⟩)), loNibble_setWidth, length, keepBytes_eq_self high zero]

theorem packFirst_unpacked {t : Len12} {p : Bytes6} (h : unpackFirst F = .ok (t, p)) : packFirst (t.setWidth 16) p = .ok F := by
  obtain ⟨rfl, long⟩ := eq_first_of_unpackFirst h
  have total : (t.setWidth 16).toNat = t.toNat := total_setWidth_toNat t
  rw [packFirst_of_total (by omega) (by omega), total12_setWidth]

theorem packConsecutive_unpacked {p : Bytes7} (h : unpackConsecutive F = .ok (k, p)) :
    packConsecutive 7 (k.setWidth 8) p = .ok F := by
  obtain rfl := eq_consecutive_of_unpackConsecutive h
  have number : (k.setWidth 8).toNat = k.toNat := nibble_setWidth_toNat k
  rw [packConsecutive_of_packable (by decide) (by omega), loNibble_setWidth]
  rfl

theorem packFlowControl_unpacked {bs st : Byte} (h : unpackFlowControl F = .ok (k, bs, st)) (zero : F.tail5 = Bytes5.zero) :
    packFlowControl bs st (k.setWidth 8) = F := by
  have layout := eq_flowControl_of_unpackFlowControl h
  rw [packFlowControl, loNibble_setWidth, ← zero, ← layout]

end unpacked

/-- Settles O18, law by law. -/
theorem codecRoundTrips : Obligations.CodecRoundTrips := by
  refine ⟨fun n p low high => ?_, fun T p low high => ?_, fun n sn p low high small => ?_, fun bs st fs small => ?_,
    fun _ _ _ => packSingle_unpacked, fun _ _ _ => packFirst_unpacked, fun _ _ _ => packConsecutive_unpacked,
    fun F k bs st h h3 h4 h5 h6 h7 => ?_⟩
  · obtain ⟨F, packed, unpacked⟩ := unpackSingle_packed low high p
    exact ⟨F, packed, _, _, unpacked, loNibble_toNat_of_le (by omega), toList_keepBytes high p⟩
  · obtain ⟨F, packed, unpacked⟩ := unpackFirst_packed low high p
    exact ⟨F, packed, _, unpacked, total12_toNat high⟩
  · obtain ⟨F, packed, unpacked⟩ := unpackConsecutive_packed low high small p
    exact ⟨F, packed, _, _, unpacked, loNibble_toNat_of_le small, toList_keepBytes high p⟩
  · exact ⟨_, unpackFlowControl_packed bs st fs, loNibble_toNat_of_le small⟩
  · exact packFlowControl_unpacked h (by simp [Frame.tail5, Bytes5.zero, h3, h4, h5, h6, h7])

end Sys2Proof.Machine
end

section
/-! PROOFS. O19 to O23: the registration commands and the two lookups (spec 41_registry.md R162 to R170). Each check of a primitive selects its
outcome; a command on an engine that waits for no handler answers with the status and the state of its primitive. -/

namespace Sys2Proof.Machine

/-! ### The sub-function lookup -/

/-- R166: the lookup is the library's search for the first element with the id. -/
theorem findSub_eq_find? (i : Byte) (l : List SubEntry) : findSub i l = l.find? (fun x => decide (x.ssid = i)) := by
  induction l with
  | nil => rfl
  | cons x xs ih => by_cases h : x.ssid = i <;> simp [findSub, h, ih]

/-- Settles O23. -/
theorem findSubIsFirstMatch : Obligations.FindSubIsFirstMatch := by
  refine fun i l => ⟨?_, fun x => ?_⟩
  · simp only [findSub_eq_find?, List.find?_eq_none, decide_eq_true_eq, ne_eq]
  · simp only [findSub_eq_find?, List.find?_eq_some_iff_append, decide_eq_true_eq, Bool.not_eq_true', decide_eq_false_iff_not, ne_eq]
    constructor
    · rintro ⟨hx, before, after, parts, first⟩
      exact ⟨before, after, parts, hx, first⟩
    · rintro ⟨before, after, parts, hx, first⟩
      exact ⟨hx, before, after, parts, first⟩

/-! ### The primitives, by the check that selects the outcome -/

section primitives
variable {k : Byte} {s : State}

/-- R162: an update in place writes the entries alone. -/
theorem regInsert_of_known (known : regFind k s ≠ none) (v : ServiceEntry) :
    regInsert k v s = (.ok, { s with reg := putRow rowKey (k, v) s.reg }) :=
  if_pos (Option.isSome_iff_ne_none.2 known)

theorem regInsert_of_full (new : regFind k s = none) (full : s.regRemaining = 0) (v : ServiceEntry) :
    regInsert k v s = (.memoryError, s) := by
  simp [regInsert, new, full]

/-- R162: a new key costs one of the capacity and joins the front of its chain. -/
theorem regInsert_of_room (new : regFind k s = none) (room : s.regRemaining ≠ 0) (v : ServiceEntry) :
    regInsert k v s = (.ok, { s with
      reg := putRow rowKey (k, v) s.reg
      regChains := s.regChains.modify (bucketOf s.cfg.bucketCount k) (fun chain => k :: chain)
      regRemaining := s.regRemaining - 1 }) := by
  simp [regInsert, new, room]

theorem regInsert_ok (h : regFind k s ≠ none ∨ s.regRemaining ≠ 0) (v : ServiceEntry) : (regInsert k v s).1 = .ok := by
  by_cases new : regFind k s = none
  · rw [regInsert_of_room new (h.resolve_left (not_not.2 new))]
  · rw [regInsert_of_known new]

theorem appendSub_of_unknown (unknown : regFind k s = none) (x : SubEntry) : appendSub k x s = (.notFoundError, s) := by
  simp [appendSub, unknown]

section known
variable {e : ServiceEntry} (known : regFind k s = some e)
include known

theorem appendSub_of_full (full : s.cfg.maxSubfunctions ≤ e.subs.length) (x : SubEntry) : appendSub k x s = (.memoryError, s) := by
  simp [appendSub, known, full]

/-- R168: an accepted sub-function is the update of its service's entry. -/
theorem appendSub_of_room (room : e.subs.length < s.cfg.maxSubfunctions) (x : SubEntry) :
    appendSub k x s = regInsert k { e with subs := e.subs ++ [x] } s := by
  simp [appendSub, known, regInsert_of_known, Nat.not_le.2 room]

end known

theorem regRemove_of_unknown (unknown : regFind k s = none) : regRemove k s = (.notFoundError, s) := by
  simp [regRemove, unknown]

/-- R164: the removed key gives back its capacity and leaves its chain. -/
theorem regRemove_of_known (known : regFind k s ≠ none) :
    regRemove k s = (.ok, { s with
      reg := dropRow rowKey k.toNat s.reg
      regChains := s.regChains.modify (bucketOf s.cfg.bucketCount k) (fun chain => chain.filter (fun x => decide (x ≠ k)))
      regRemaining := s.regRemaining + 1 }) := by
  simp [regRemove, known]

end primitives

/-- A command admitted while no handler call is outstanding answers with the status and the state of its primitive. -/
theorem whenIdle_completeWith {s u : State} (live : s.live = true) (idle : s.dispState = .idle) {r : Status × State} {st : Status}
    (h : r = (st, u)) : whenIdle s (completeWith r) = .next (emit (.result [st.code]) u) := by
  rw [whenIdle_of_idle live idle, completeWith_eq, h]

/-! ### REGISTER_SERVICE -/

/-- Settles O19: `regFind_regInsert` says what every key finds, and whether the key is new says which fields the insertion writes. -/
theorem registerServiceResult : Obligations.RegisterServiceResult := by
  intro sid hflag hid prm s live idle
  refine ⟨fun new full => whenIdle_completeWith live idle (regInsert_of_full new full _), fun accepted => ?_⟩
  have ok := regInsert_ok accepted ⟨hasHandler hflag, hid, prm, []⟩
  refine ⟨_, whenIdle_completeWith live idle (Prod.ext ok rfl), fun k => ?_, fun known => ?_, fun new => ?_⟩
  · simp only [regFind_regInsert, ok, true_and]
    rfl
  · rw [regInsert_of_known known]
  · rw [regInsert_of_room new (accepted.resolve_left (not_not.2 new))]

/-! ### REGISTER_SUBFUNCTION -/

/-- Settles O20: an accepted sub-function is an update of a known key, so the facts about insertion apply. -/
theorem registerSubfunctionResult : Obligations.RegisterSubfunctionResult := by
  intro sid ssid hflag hid prm s live idle
  refine ⟨fun unknown => whenIdle_completeWith live idle (appendSub_of_unknown unknown _),
    fun e found full => whenIdle_completeWith live idle (appendSub_of_full found full _), fun e found room => ?_⟩
  have known : regFind sid s ≠ none := by simp [found]
  have update := appendSub_of_room found room ⟨ssid, hasHandler hflag, hid, prm⟩
  have ok := regInsert_ok (.inl known) { e with subs := e.subs ++ [⟨ssid, hasHandler hflag, hid, prm⟩] }
  refine ⟨_, whenIdle_completeWith live idle (update.trans (Prod.ext ok rfl)), ?_, fun k => ?_⟩
  · rw [regInsert_of_known known]
  · simp only [regFind_regInsert, ok, true_and]
    rfl

/-! ### REMOVE_SERVICE -/

/-- Settles O22: a removal writes the entries, the capacity and one chain, and `find_drop` says what every key finds. -/
theorem removeServiceResult : Obligations.RemoveServiceResult :=
  fun key s live idle => ⟨fun unknown => whenIdle_completeWith live idle (regRemove_of_unknown unknown),
    fun known => ⟨_, whenIdle_completeWith live idle (regRemove_of_known known), fun k => find_drop key k s.reg, rfl⟩⟩

/-! ### FIND_SERVICE -/

/-- R91: the bytes of a word, the most significant first, as quotients of its value. -/
theorem bytes32_eq_ofNat (v : Word) :
    bytes32 v = [BitVec.ofNat 8 (v.toNat / 2 ^ 24), BitVec.ofNat 8 (v.toNat / 2 ^ 16), BitVec.ofNat 8 (v.toNat / 2 ^ 8),
      BitVec.ofNat 8 v.toNat] := by
  simp only [bytes32, BitVec.extractLsb', Nat.shiftRight_eq_div_pow, Nat.pow_zero, Nat.div_one]

/-- Settles O21: the lookup alone selects the packet, in every dispatch state. -/
theorem findServiceResult : Obligations.FindServiceResult := by
  intro key s live
  have admitted : exec (.findService key) s = _ := whenLive_of_live live _
  refine ⟨fun unknown => ?_, fun e found => ?_⟩
  · rw [admitted, unknown]
    rfl
  · rw [admitted, found]
    simp only [complete, serviceOutputs, bytes32_eq_ofNat]
    rfl

end Sys2Proof.Machine
end

section
/-! PROOFS. O26 to O31: the intake of a frame on a live block, kind by kind (spec 42_receive.md R201 to R215). A layout lemma for each kind names
the frame that arrived, a lemma for each outcome of its intake says what that outcome writes. -/

namespace Sys2Proof

/-! ### The frames of a kind, byte by byte -/

theorem Frame.toList_injective : Function.Injective Frame.toList := by
  rintro ⟨⟩ ⟨⟩ h
  simpa [Frame.toList] using h

/-- R82. -/
theorem single_bytes (len : Nibble) (p : Bytes7) :
    Frame.single len p = ⟨len.setWidth 8, p.b0, p.b1, p.b2, p.b3, p.b4, p.b5, p.b6⟩ := by
  have small : (len.setWidth 8).toNat ≤ 15 := by
    rw [nibble_setWidth_toNat]
    omega
  have bytes := toList_single small p
  rw [loNibble_setWidth] at bytes
  exact Frame.toList_injective bytes

/-- R83. -/
theorem first_bytes (t : Len12) (p : Bytes6) :
    Frame.first t p =
      ⟨BitVec.ofNat 8 (0x10 + t.toNat / 256), BitVec.ofNat 8 (t.toNat % 256), p.b0, p.b1, p.b2, p.b3, p.b4, p.b5⟩ := by
  have small : (t.setWidth 16).toNat ≤ 4095 := by
    rw [total_setWidth_toNat]
    omega
  have bytes := toList_first small p
  rw [total12_setWidth, total_setWidth_toNat] at bytes
  exact Frame.toList_injective bytes

/-- R84. -/
theorem consecutive_bytes (sn : Nibble) (p : Bytes7) :
    Frame.consecutive sn p = ⟨BitVec.ofNat 8 (0x20 + sn.toNat), p.b0, p.b1, p.b2, p.b3, p.b4, p.b5, p.b6⟩ := by
  have small : (sn.setWidth 8).toNat ≤ 15 := by
    rw [nibble_setWidth_toNat]
    omega
  have bytes := toList_consecutive small p
  rw [loNibble_setWidth, nibble_setWidth_toNat] at bytes
  exact Frame.toList_injective bytes

namespace Machine

/-! ### An instruction that takes a frame in -/

section admitted
variable {i : Instr} {f : Frame} {s : State}

/-- R201, R205: on a live block it completes as the intake of the frame does. -/
theorem exec_of_takesIn (live : s.live = true) (taken : takesIn i f) : exec i s = completeOk (receive f s) := by
  rw [← whenLive_of_live live (completeOk (receive f s))]
  rcases taken with rfl | rfl
  · rfl
  · exact exec_decodeFrame f s

theorem exec_of_receive {u : State} (live : s.live = true) (taken : takesIn i f) (h : receive f s = .ok u) :
    exec i s = .next (emit (.result [0x00]) u) := by
  rw [exec_of_takesIn live taken, h]
  rfl

end admitted

/-! ### SingleFrames -/

section single
variable {len : Nibble} {s : State}

/-- D20: length 0 is taken as any other length up to 7. -/
theorem intakeSingle_of_long (long : 7 < len.toNat) (p : Bytes7) : intakeSingle (Frame.single len p) s = s := by
  rw [intakeSingle, unpackSingle_single, if_pos long]

theorem intakeSingle_of_busy (short : len.toNat ≤ 7) (busy : s.busy = true) (p : Bytes7) :
    intakeSingle (Frame.single len p) s = (transmit (negativeFrame s.sid s.cfg.nrcBrr) s).2 := by
  rw [intakeSingle, unpackSingle_single, if_neg (by omega), ← respondNegative_frame]
  exact if_pos busy

theorem intakeSingle_of_free (short : len.toNat ≤ 7) (free : s.busy = false) (p : Bytes7) :
    intakeSingle (Frame.single len p) s =
      { s with
        lastActivity := s.tick
        rxBuf := p
        rxLen := BitVec.ofNat 3 len.toNat
        sid := p.b0
        ssid := if 2 ≤ len.toNat then p.b1 else 0
        active := .single } := by
  rw [intakeSingle, unpackSingle_single, if_neg (by omega), BitVec.ofNat_toNat]
  exact if_neg (by simp [free])

end single

/-- Settles O26: the three outcomes of a SingleFrame's intake. -/
theorem singleFrameIntake : Obligations.SingleFrameIntake := by
  intro len p s i live taken
  rw [← single_bytes] at taken
  have run := exec_of_receive live taken (receive_single (typeNibble_single len p) s)
  refine ⟨fun long => ?_, fun short busy => ?_, fun short free => ?_⟩
  · rw [run, intakeSingle_of_long long]
  · rw [run, intakeSingle_of_busy short busy]
  · rw [run, intakeSingle_of_free short free]

/-! ### FirstFrames -/

/-- `MemWrite` by the offset of a byte in what is written (R10). -/
theorem read_writeBytes_getD (vs : List Byte) (m : List Host.Cell) (a o : Nat) (h : o < vs.length) :
    Memory.read (Memory.writeBytes m a vs) (a + o) = vs.getD o 0 := by
  rw [read_writeBytes_inside vs m a o h, List.getD_eq_getElem]

section first
variable {t : Len12} {s : State}

/-- R207: a reassembly in progress is answered RequestSequenceError and aborted. -/
theorem abortRunning_of_receiving (h : s.reasmState = .receiving) :
    abortRunning s = abort (transmit (negativeFrame s.sid s.cfg.nrcRse) s).2 := by
  rw [abortRunning, if_pos h, respondNegative_frame]

theorem abortRunning_of_not_receiving (h : s.reasmState ≠ .receiving) : abortRunning s = s := if_neg h

theorem abortRunning_not_receiving (s : State) : (abortRunning s).reasmState ≠ .receiving := by
  by_cases h : s.reasmState = .receiving
  · simp [abortRunning_of_receiving h]
  · rwa [abortRunning_of_not_receiving h]

theorem intakeFirst_of_short (short : t.toNat < 8) (p : Bytes6) : intakeFirst (Frame.first t p) s = s := by
  rw [intakeFirst, unpackFirst_first, if_pos short]

theorem intakeFirst_of_busy (long : 8 ≤ t.toNat) (busy : s.busy = true) (p : Bytes6) :
    intakeFirst (Frame.first t p) s = (transmit (negativeFrame s.sid s.cfg.nrcBrr) (abortRunning s)).2 := by
  have refusal : (respondNegative s.cfg.nrcBrr (abortRunning s)).2 = (transmit (negativeFrame s.sid s.cfg.nrcBrr) (abortRunning s)).2 := by
    rw [respondNegative_frame, abortRunning_sid]
  rw [← refusal, intakeFirst, unpackFirst_first, if_neg (by omega)]
  simp [busy]

theorem intakeFirst_of_free (long : 8 ≤ t.toNat) (free : s.busy = false) (p : Bytes6) :
    intakeFirst (Frame.first t p) s = startReassembly t p (abortRunning s) := by
  rw [intakeFirst, unpackFirst_first, if_neg (by omega)]
  simp [free]

/-- R207: the frame is taken as if no reassembly had been running. -/
theorem intakeFirst_abortRunning (long : 8 ≤ t.toNat) (p : Bytes6) (s : State) :
    intakeFirst (Frame.first t p) (abortRunning s) = intakeFirst (Frame.first t p) s := by
  have again := abortRunning_of_not_receiving (abortRunning_not_receiving s)
  cases hb : s.busy
  · rw [intakeFirst_of_free long hb, intakeFirst_of_free long (by simpa using hb), again]
  · rw [intakeFirst_of_busy long hb, intakeFirst_of_busy long (by simpa using hb), again, abortRunning_sid, abortRunning_cfg]

theorem startReassembly_of_overflow (h : s.cfg.reasmCapacity < t.toNat) (p : Bytes6) :
    startReassembly t p s = abort (transmit (negativeFrame s.sid s.cfg.nrcRtl) (markActivity s)).2 := by
  rw [startReassembly_eq, if_pos h, respondNegative_frame]
  rfl

theorem startReassembly_of_fit (h : t.toNat ≤ s.cfg.reasmCapacity) (p : Bytes6) :
    startReassembly t p s = startNcs (transmit ctsFrame (latchFirst t p (markActivity s))).2 := by
  rw [startReassembly_eq, if_neg (by omega)]
  rfl

end first

/-- Settles O27: too short, busy or too long, each from the state that R207's abort leaves. -/
theorem firstFrameTurnedAway : Obligations.FirstFrameTurnedAway := by
  intro t p s i live taken
  have run (s : State) (live : s.live = true) := exec_of_receive live taken (receive_first (typeNibble_first t p) s)
  refine ⟨fun short => ?_, fun long quiet busy => ?_, fun long running busy => ?_, fun overflow long quiet free => ?_, fun long running => ?_⟩
  · rw [run s live, intakeFirst_of_short short]
  · rw [run s live, intakeFirst_of_busy long busy, abortRunning_of_not_receiving quiet]
  · rw [run s live, intakeFirst_of_busy long busy, abortRunning_of_receiving running]
  · rw [run s live, intakeFirst_of_free long free, abortRunning_of_not_receiving quiet, startReassembly_of_overflow overflow]
    rfl
  · rw [← abortRunning_of_receiving running, run s live, run (abortRunning s) (by simpa using live), intakeFirst_abortRunning long]

/-- Settles O28: the bytes are written over the buffer of the state that R207's abort leaves. -/
theorem firstFrameStartsReassembly : Obligations.FirstFrameStartsReassembly := by
  intro t p s i live taken long fit free
  rw [← first_bytes] at taken
  refine ⟨abortRunning s, Memory.writeBytes (abortRunning s).reasmBuf 0 p.toList, abortRunning_of_not_receiving,
    abortRunning_of_receiving, fun o inside => ?_, fun o outside => ?_, ?_⟩
  · have stored := read_writeBytes_getD p.toList (abortRunning s).reasmBuf 0 o inside
    rwa [Nat.zero_add] at stored
  · exact read_writeBytes_outside p.toList _ 0 o (.inr outside)
  · rw [exec_of_receive live taken (receive_first (typeNibble_first t p) s), intakeFirst_of_free long free,
      startReassembly_of_fit (by simpa using fit)]
    simp [startNcs, latchFirst, markActivity]

/-! ### ConsecutiveFrames -/

section consecutive
variable {f : Frame} {s : State}

theorem intakeConsecutive_of_not_receiving (h : s.reasmState ≠ .receiving) : intakeConsecutive f s = .ok s := if_pos h

variable (kind : f.typeNibble = 2) (running : s.reasmState = .receiving)
include kind running

theorem intakeConsecutive_of_out_of_sequence (h : f.kindNibble ≠ s.reasmExpSn) :
    intakeConsecutive f s = .ok (transmit (negativeFrame s.sid s.cfg.nrcRse) (abort (markActivity s))).2 := by
  rw [intakeConsecutive_eq, if_neg (by simp [kind, running]), if_pos h, respondNegative_frame]
  rfl

theorem intakeConsecutive_of_in_sequence (h : f.kindNibble = s.reasmExpSn) (copies : copyCount s ≠ 0)
    (fits : s.reasmRecv.toNat + copyCount s ≤ s.cfg.reasmCapacity) :
    intakeConsecutive f s = .ok (acceptConsecutive f.tail7 (copyCount s) (markActivity s)) := by
  rw [intakeConsecutive_eq, if_neg (by simp [kind, running]), if_neg (not_not.2 h), if_neg (by omega)]

end consecutive

/-- Settles O29: ignored outside a reassembly, aborting it when out of sequence. -/
theorem consecutiveFrameRejected : Obligations.ConsecutiveFrameRejected := by
  intro sn p s i live taken
  rw [← consecutive_bytes] at taken
  have kind := typeNibble_consecutive sn p
  refine ⟨fun quiet => ?_, fun running wrong => ?_⟩
  · exact exec_of_receive live taken ((receive_consecutive kind s).trans (intakeConsecutive_of_not_receiving quiet))
  · refine exec_of_receive live taken ((receive_consecutive kind s).trans ?_)
    exact intakeConsecutive_of_out_of_sequence kind running (by simpa using wrong)

/-! ### What an accepted ConsecutiveFrame writes (R213) -/

section accept
variable (p : Bytes7) (n : Nat) (s : State)

theorem acceptConsecutive_reasmBuf :
    (acceptConsecutive p n s).reasmBuf = Memory.writeBytes s.reasmBuf s.reasmRecv.toNat (p.toList.take n) := by
  dsimp only [acceptConsecutive]
  split
  · rfl
  · split <;> rfl

theorem acceptConsecutive_reasmRecv : (acceptConsecutive p n s).reasmRecv = s.reasmRecv + BitVec.ofNat 12 n := by
  dsimp only [acceptConsecutive]
  split
  · rfl
  · split <;> rfl

theorem acceptConsecutive_reasmExpSn : (acceptConsecutive p n s).reasmExpSn = s.reasmExpSn + 1 := by
  dsimp only [acceptConsecutive]
  split
  · rfl
  · split <;> rfl

/-- Only these fields are written. -/
theorem acceptConsecutive_frame :
    acceptConsecutive p n s =
      { s with
        reasmBuf := (acceptConsecutive p n s).reasmBuf
        reasmRecv := (acceptConsecutive p n s).reasmRecv
        reasmExpSn := (acceptConsecutive p n s).reasmExpSn
        reasmState := (acceptConsecutive p n s).reasmState
        active := (acceptConsecutive p n s).active
        ncsActive := (acceptConsecutive p n s).ncsActive
        ncsMark := (acceptConsecutive p n s).ncsMark } := by
  dsimp only [acceptConsecutive]
  split
  · rfl
  · split <;> rfl

variable {p n s}

/-- The last bytes complete the message and make it the pending request. -/
theorem acceptConsecutive_of_last (last : s.reasmRecv + BitVec.ofNat 12 n = s.reasmTotal) :
    (acceptConsecutive p n s).reasmState = .complete ∧ (acceptConsecutive p n s).active = .multi ∧
      (acceptConsecutive p n s).ncsActive = false ∧ (acceptConsecutive p n s).ncsMark = s.ncsMark := by
  simp [acceptConsecutive, last]

/-- Other bytes leave the reassembly running, with N_Cs restarted where configured. -/
theorem acceptConsecutive_of_more (more : s.reasmRecv + BitVec.ofNat 12 n ≠ s.reasmTotal) :
    (acceptConsecutive p n s).reasmState = s.reasmState ∧ (acceptConsecutive p n s).active = s.active ∧
      (acceptConsecutive p n s).ncsActive = s.ncsActive ∧
      (acceptConsecutive p n s).ncsMark = if s.cfg.ncsRestartOnCf then s.tick else s.ncsMark := by
  cases restart : s.cfg.ncsRestartOnCf <;> simp [acceptConsecutive, more, restart]

end accept

/-- R35: the receive counter does not wrap, for the bytes copied are among those that the total still asks for. -/
theorem reasmRecv_add_copyCount {s : State} (copies : copyCount s ≠ 0) :
    (s.reasmRecv + BitVec.ofNat 12 (copyCount s)).toNat = s.reasmRecv.toNat + copyCount s := by
  have bound : s.reasmRecv.toNat + copyCount s ≤ s.reasmTotal.toNat := by
    unfold copyCount at *
    omega
  rw [BitVec.toNat_add, BitVec.toNat_ofNat]
  omega

/-- R213: those bytes complete the message when they make up the total. -/
theorem reasmRecv_add_copyCount_eq_total {s : State} (copies : copyCount s ≠ 0) :
    s.reasmRecv + BitVec.ofNat 12 (copyCount s) = s.reasmTotal ↔ s.reasmRecv.toNat + copyCount s = s.reasmTotal.toNat := by
  rw [← BitVec.toNat_inj, reasmRecv_add_copyCount copies]

/-- Settles O30: R35's counters put the copy inside the buffer, and the field lemmas of `acceptConsecutive` say what it writes. -/
theorem consecutiveFrameAccepted : Obligations.ConsecutiveFrameAccepted := by
  intro sn p s i live taken running inSequence pending capacity
  rw [← consecutive_bytes] at taken
  have kind := typeNibble_consecutive sn p
  have copies : copyCount s ≠ 0 := by
    unfold copyCount
    omega
  have fits : s.reasmRecv.toNat + copyCount s ≤ s.cfg.reasmCapacity := by
    unfold copyCount
    omega
  have count : (p.toList.take (copyCount s)).length = copyCount s := by
    rw [List.length_take]
    exact min_eq_left (min_le_left _ _)
  have intake := intakeConsecutive_of_in_sequence kind running (by simpa using inSequence) copies fits
  rw [tail7_consecutive] at intake
  refine ⟨copyCount s, acceptConsecutive p (copyCount s) (markActivity s), rfl,
    exec_of_receive live taken ((receive_consecutive kind s).trans intake), fun o inside => ?_, fun o outside => ?_, ?_, ?_,
    fun last => ?_, fun more => ?_, acceptConsecutive_frame ..⟩
  · have stored := read_writeBytes_getD (p.toList.take (copyCount s)) s.reasmBuf s.reasmRecv.toNat o (count.symm ▸ inside)
    rw [List.getD_eq_getElem?_getD, List.getElem?_take_of_lt inside, ← List.getD_eq_getElem?_getD] at stored
    rw [acceptConsecutive_reasmBuf]
    exact stored
  · rw [acceptConsecutive_reasmBuf]
    exact read_writeBytes_outside _ s.reasmBuf s.reasmRecv.toNat o (by rwa [count])
  · rw [acceptConsecutive_reasmRecv]
    exact reasmRecv_add_copyCount copies
  · rw [acceptConsecutive_reasmExpSn, BitVec.toNat_add]
    rfl
  · exact acceptConsecutive_of_last ((reasmRecv_add_copyCount_eq_total copies).2 last)
  · obtain ⟨stays, rest⟩ := acceptConsecutive_of_more (p := p) (s := markActivity s) fun last =>
      more ((reasmRecv_add_copyCount_eq_total copies).1 last)
    exact ⟨stays.trans running, rest⟩

/-! ### Other frames -/

/-- Settles O31: R205 classifies by the type nibble, and runs nothing for 3 and above. -/
theorem otherFramesDoNothing : Obligations.OtherFramesDoNothing := by
  intro f s i live taken kind
  rw [← typeNibble_toNat] at kind
  exact exec_of_receive live taken (receive_other kind s)

end Machine

end Sys2Proof
end

section
/-! PROOFS. O32: the transitions of the reassembly state and of the pending request (spec 42_receive.md R218). The rows of R218's table are the
constructors of `Transition`; every way in which a command completes is one of them, and each clause is read off the rows. -/

namespace Sys2Proof.Machine

/-! ### The table -/

/-- R248, R250: the scan for a sub-function of the service `e` calls no handler. -/
def CallsNoSubfunction (e : ServiceEntry) (s : State) : Prop := ∀ x, findSub s.ssid e.subs = some x → x.hasHandler = false

/-- R245, R246: nor does the dispatch of the pending request. -/
def CallsNoHandler (s : State) : Prop := ∀ e, regFind s.sid s = some e → e.hasHandler = false ∧ CallsNoSubfunction e s

/-- R218: what an instruction other than INIT and DELETE does to the reassembly state and to the pending request. -/
inductive Transition (i : Instr) (s t : State) : Prop where
  /-- Neither changes. -/
  | kept (hr : t.reasmState = s.reasmState) (ha : t.active = s.active)
  /-- R206: a SingleFrame becomes the pending request. -/
  | latched {f : Frame} (taken : takesIn i f) (kind : f.typeNibble = 0) (short : f.kindNibble.toNat ≤ 7) (free : s.busy = false)
      (hr : t.reasmState = s.reasmState) (ha : t.active = .single)
  /-- R209: a FirstFrame starts a reassembly. -/
  | started {f : Frame} (taken : takesIn i f) (kind : f.typeNibble = 1) (long : 8 ≤ f.total.toNat) (fit : f.total.toNat ≤ s.cfg.reasmCapacity)
      (free : s.busy = false) (hr : t.reasmState = .receiving) (ha : t.active = s.active)
  /-- R207 to R209: a FirstFrame aborts the running reassembly and is answered busy, or exceeds the capacity. -/
  | turnedAway {f : Frame} (taken : takesIn i f) (kind : f.typeNibble = 1) (long : 8 ≤ f.total.toNat)
      (why : s.busy = true ∧ s.reasmState = .receiving ∨ s.busy = false ∧ s.cfg.reasmCapacity < f.total.toNat)
      (hr : t.reasmState = .idle) (ha : t.active = s.active)
  /-- R212: a ConsecutiveFrame out of sequence. -/
  | outOfSequence {f : Frame} (taken : takesIn i f) (kind : f.typeNibble = 2) (running : s.reasmState = .receiving)
      (wrong : f.kindNibble ≠ s.reasmExpSn) (hr : t.reasmState = .idle) (ha : t.active = s.active)
  /-- R213: the ConsecutiveFrame with the last bytes. -/
  | completed {f : Frame} (taken : takesIn i f) (kind : f.typeNibble = 2) (running : s.reasmState = .receiving)
      (right : f.kindNibble = s.reasmExpSn) (missing : s.reasmRecv.toNat < s.reasmTotal.toNat)
      (reach : s.reasmTotal.toNat ≤ s.reasmRecv.toNat + 7) (hr : t.reasmState = .complete) (ha : t.active = .multi)
  /-- R243: the N_Cs timeout. -/
  | timedOut (cmd : i = .dispatch) (idle : s.dispState = .idle) (expired : ncsExpired s = true)
      (hr : t.reasmState = .idle) (ha : t.active = s.active)
  /-- R244, R245, R251: the pending request is taken, and the buffers cleared unless a handler is called. -/
  | dispatched (cmd : i = .dispatch) (idle : s.dispState = .idle) (session : sessionExpired s = false) (pending : s.active ≠ .none)
      (hr : t.reasmState = s.reasmState ∨ t.reasmState = .idle ∧ (ncsExpired s = true ∨ CallsNoHandler s)) (ha : t.active = .none)
  /-- R247, R249, R251: the handler's return ends the dispatch. -/
  | returned {c : Byte} (cmd : i = .handlerReturn c)
      (why : s.dispState = .waitSub ∨ s.dispState = .waitService ∧ ∀ e, regFind s.dispSid s = some e → CallsNoSubfunction e s)
      (hr : t.reasmState = .idle) (ha : t.active = s.active)

/-! ### Each clause of the statement, from the rows: the rows that do not reach the value contradict its having been reached -/

section clauses
variable {i : Instr} {s t : State}

theorem Transition.to_receiving (h : Transition i s t) (ht : t.reasmState = .receiving) (hs : s.reasmState ≠ .receiving) :
    s.busy = false ∧ ∃ f, takesIn i f ∧ f.f0.toNat / 16 = 1 ∧
      8 ≤ f.f0.toNat % 16 * 256 + f.f1.toNat ∧ f.f0.toNat % 16 * 256 + f.f1.toNat ≤ s.cfg.reasmCapacity := by
  cases h
  case started f taken kind long fit free _ _ =>
    rw [total_toNat] at long fit
    exact ⟨free, f, taken, (typeNibble_eq f 1).1 kind, long, fit⟩
  all_goals simp_all

theorem Transition.to_complete (h : Transition i s t) (ht : t.reasmState = .complete) (hs : s.reasmState ≠ .complete) :
    s.reasmState = .receiving ∧ t.active = .multi ∧ s.reasmRecv.toNat < s.reasmTotal.toNat ∧
      s.reasmTotal.toNat ≤ s.reasmRecv.toNat + 7 ∧ ∃ f, takesIn i f ∧ f.f0.toNat / 16 = 2 ∧ loNibble f.f0 = s.reasmExpSn := by
  cases h
  case completed f taken kind running right missing reach _ ha =>
    exact ⟨running, ha, missing, reach, f, taken, (typeNibble_eq f 2).1 kind, right⟩
  all_goals simp_all

theorem Transition.to_idle (h : Transition i s t) (ht : t.reasmState = .idle) (hs : s.reasmState ≠ .idle) :
    (i = .dispatch ∧ s.dispState = .idle ∧
      (ncsExpired s = true ∨ (sessionExpired s = false ∧ s.active ≠ .none ∧ CallsNoHandler s))) ∨
    ((∃ c, i = .handlerReturn c) ∧
      (s.dispState = .waitSub ∨ (s.dispState = .waitService ∧ ∀ e, regFind s.dispSid s = some e → CallsNoSubfunction e s))) ∨
    (∃ f, takesIn i f ∧ f.f0.toNat / 16 = 1 ∧ 8 ≤ f.f0.toNat % 16 * 256 + f.f1.toNat ∧
      ((s.busy = true ∧ s.reasmState = .receiving) ∨
        (s.busy = false ∧ s.cfg.reasmCapacity < f.f0.toNat % 16 * 256 + f.f1.toNat))) ∨
    (s.reasmState = .receiving ∧ ∃ f, takesIn i f ∧ f.f0.toNat / 16 = 2 ∧ loNibble f.f0 ≠ s.reasmExpSn) := by
  cases h
  case timedOut cmd idle expired _ _ => exact .inl ⟨cmd, idle, .inl expired⟩
  case dispatched cmd idle session pending hr _ =>
    obtain stays | ⟨_, expired | uncalled⟩ := hr
    · exact absurd (stays.symm.trans ht) hs
    · exact .inl ⟨cmd, idle, .inl expired⟩
    · exact .inl ⟨cmd, idle, .inr ⟨session, pending, uncalled⟩⟩
  case returned c cmd why _ _ => exact .inr (.inl ⟨⟨c, cmd⟩, why⟩)
  case turnedAway f taken kind long why _ _ =>
    rw [total_toNat] at long why
    exact .inr (.inr (.inl ⟨f, taken, (typeNibble_eq f 1).1 kind, long, why⟩))
  case outOfSequence f taken kind running wrong _ _ =>
    exact .inr (.inr (.inr ⟨running, f, taken, (typeNibble_eq f 2).1 kind, wrong⟩))
  all_goals simp_all

theorem Transition.to_single (h : Transition i s t) (ht : t.active = .single) (hs : s.active ≠ .single) :
    s.busy = false ∧ ∃ f, takesIn i f ∧ f.f0.toNat / 16 = 0 ∧ f.f0.toNat % 16 ≤ 7 := by
  cases h
  case latched f taken kind short free _ _ =>
    rw [kindNibble_toNat] at short
    exact ⟨free, f, taken, (typeNibble_eq f 0).1 kind, short⟩
  all_goals simp_all

theorem Transition.to_multi (h : Transition i s t) (ht : t.active = .multi) (hs : s.active ≠ .multi) :
    s.reasmState = .receiving ∧ t.reasmState = .complete ∧ ∃ f, takesIn i f ∧ f.f0.toNat / 16 = 2 := by
  cases h
  case completed f taken kind running _ _ _ hr _ => exact ⟨running, hr, f, taken, (typeNibble_eq f 2).1 kind⟩
  all_goals simp_all

theorem Transition.to_none (h : Transition i s t) (ht : t.active = .none) (hs : s.active ≠ .none) :
    i = .dispatch ∧ s.dispState = .idle ∧ sessionExpired s = false := by
  cases h
  case dispatched cmd idle session _ _ _ => exact ⟨cmd, idle, session⟩
  all_goals simp_all

end clauses

/-! ### The intake of a frame -/

section intake
variable {i : Instr} {f : Frame} {s : State} (taken : takesIn i f)
include taken

theorem transition_intakeSingle (kind : f.typeNibble = 0) : Transition i s (intakeSingle f s) := by
  rw [← single_self kind]
  by_cases short : f.kindNibble.toNat ≤ 7
  · cases free : s.busy
    · rw [intakeSingle_of_free short free]
      exact .latched taken kind short free rfl rfl
    · rw [intakeSingle_of_busy short free]
      exact .kept (by simp) (by simp)
  · rw [intakeSingle_of_long (by omega)]
    exact .kept rfl rfl

/-- R207, R208: a busy block turns the frame away, after the abort of a running reassembly. -/
theorem transition_intakeFirst_of_busy (kind : f.typeNibble = 1) (long : 8 ≤ f.total.toNat) (busy : s.busy = true) :
    Transition i s (intakeFirst f s) := by
  rw [← first_self kind, intakeFirst_of_busy long busy]
  by_cases running : s.reasmState = .receiving
  · exact .turnedAway taken kind long (.inl ⟨busy, running⟩) (by simp [abortRunning_of_receiving running]) (by simp)
  · rw [abortRunning_of_not_receiving running]
    exact .kept (by simp) (by simp)

/-- R209: a block that is not busy starts a reassembly within its capacity. -/
theorem transition_intakeFirst_of_free (kind : f.typeNibble = 1) (long : 8 ≤ f.total.toNat) (free : s.busy = false) :
    Transition i s (intakeFirst f s) := by
  rw [← first_self kind, intakeFirst_of_free long free]
  by_cases fit : f.total.toNat ≤ s.cfg.reasmCapacity
  · rw [startReassembly_of_fit (by simpa using fit)]
    exact .started taken kind long fit free (by simp) (by simp [markActivity])
  · rw [startReassembly_of_overflow (by simpa using fit)]
    exact .turnedAway taken kind long (.inr ⟨free, by omega⟩) rfl (by simp [markActivity])

theorem transition_intakeFirst (kind : f.typeNibble = 1) : Transition i s (intakeFirst f s) := by
  by_cases long : 8 ≤ f.total.toNat
  · cases busy : s.busy
    · exact transition_intakeFirst_of_free taken kind long busy
    · exact transition_intakeFirst_of_busy taken kind long busy
  · rw [← first_self kind, intakeFirst_of_short (by omega)]
    exact .kept rfl rfl

theorem transition_intakeConsecutive {u : State} (kind : f.typeNibble = 2) (h : intakeConsecutive f s = .ok u) : Transition i s u := by
  obtain rfl | ⟨running, ⟨wrong, rfl⟩ | ⟨right, copies, _, rfl⟩⟩ := intakeConsecutive_cases h
  · exact .kept rfl rfl
  · exact .outOfSequence taken kind running wrong (by simp) (by simp)
  · by_cases last : s.reasmRecv + BitVec.ofNat 12 (copyCount s) = s.reasmTotal
    · obtain ⟨hr, ha, _⟩ := acceptConsecutive_of_last (p := f.tail7) (s := markActivity s) last
      have counted := (reasmRecv_add_copyCount_eq_total (by omega)).1 last
      have most : copyCount s ≤ 7 := min_le_left _ _
      exact .completed taken kind running right (by omega) (by omega) hr ha
    · obtain ⟨hr, ha, _⟩ := acceptConsecutive_of_more (p := f.tail7) (s := markActivity s) last
      exact .kept hr ha

end intake

/-! ### The phases of a dispatch -/

theorem timeouts_reasmState (s : State) : (timeouts s).reasmState = if ncsExpired s then .idle else s.reasmState := by
  unfold timeouts
  split <;> split <;> rfl

/-- R248, R251: the buffers are cleared unless a handler is called. -/
theorem subfunctionPhase_transition {s u : State} (h : subfunctionPhase s = .ok u) :
    u.active = s.active ∧
      (u.reasmState = s.reasmState ∨ u.reasmState = .idle ∧ ∀ e, regFind s.dispSid s = some e → CallsNoSubfunction e s) := by
  obtain ⟨e, found, ⟨absent, rfl⟩ | ⟨x, present, ⟨_, rfl⟩ | ⟨plain, rfl⟩⟩⟩ := subfunctionPhase_cases h
  · exact ⟨by simp, .inr ⟨rfl, by simp [CallsNoSubfunction, found, absent]⟩⟩
  · exact ⟨rfl, .inl rfl⟩
  · exact ⟨rfl, .inr ⟨rfl, by simp [CallsNoSubfunction, found, present, plain]⟩⟩

/-- R245, R246: so are they by Lookup. -/
theorem lookupRequest_transition {s u : State} (h : lookupRequest s = .ok u) :
    u.active = s.active ∧ (u.reasmState = s.reasmState ∨ u.reasmState = .idle ∧ CallsNoHandler s) := by
  obtain ⟨unknown, rfl⟩ | ⟨e, found, ⟨_, rfl⟩ | ⟨plain, phase⟩⟩ := lookupRequest_cases h
  · exact ⟨by simp, .inr ⟨rfl, by simp [CallsNoHandler, unknown]⟩⟩
  · exact ⟨rfl, .inl rfl⟩
  · obtain ⟨ha, hr⟩ := subfunctionPhase_transition phase
    refine ⟨ha, hr.imp_right fun ⟨cleared, uncalled⟩ => ⟨cleared, fun e' found' => ?_⟩⟩
    obtain rfl : e = e' := Option.some.inj (found.symm.trans found')
    exact ⟨plain, uncalled e found⟩

/-- R243: the timeouts alone. -/
theorem transition_timeouts {s : State} (idle : s.dispState = .idle) : Transition .dispatch s (timeouts s) := by
  cases expired : ncsExpired s
  · exact .kept (by simp [timeouts_reasmState, expired]) (by simp)
  · exact .timedOut rfl idle expired (by simp [timeouts_reasmState, expired]) (by simp)

theorem transition_dispatchRequest {s u : State} (idle : s.dispState = .idle) (h : dispatchRequest s = .ok u) :
    Transition .dispatch s u := by
  obtain ⟨_, rfl⟩ | ⟨_, _, rfl⟩ | ⟨session, pending, lookup⟩ := dispatchRequest_cases h
  · exact transition_timeouts idle
  · exact transition_timeouts idle
  · obtain ⟨ha, hr⟩ := lookupRequest_transition lookup
    refine .dispatched rfl idle session pending ?_ ha
    cases expired : ncsExpired s
    · rw [timeouts_of_none session expired] at hr
      exact hr.imp_right fun ⟨cleared, uncalled⟩ => ⟨cleared, .inr uncalled⟩
    · have aborted : (takeRequest (timeouts s)).reasmState = .idle := by simp [timeouts_reasmState, expired]
      exact .inr ⟨hr.elim (·.trans aborted) (·.1), .inl rfl⟩

theorem transition_serviceReturned {s u : State} {c : Byte} (wait : s.dispState = .waitService) (h : serviceReturned c s = .ok u) :
    Transition (.handlerReturn c) s u := by
  obtain ⟨ha, hr⟩ := subfunctionPhase_transition h
  have active : u.active = s.active := by simpa using ha
  obtain stays | ⟨cleared, uncalled⟩ := hr
  · exact .kept (by simpa using stays) active
  · refine .returned rfl (.inr ⟨wait, ?_⟩) cleared active
    simpa [CallsNoSubfunction, regFind_congr (s := s) (t := endCall (translate c s)) (by simp)] using uncalled

/-! ### The registry commands -/

theorem transition_regInsert (i : Instr) (k : Byte) (v : ServiceEntry) (s : State) : Transition i s (regInsert k v s).2 := by
  obtain ⟨_, e⟩ | ⟨_, _, e⟩ | ⟨_, _, e⟩ := regInsert_cases k v s <;> exact .kept (by rw [e]) (by rw [e])

theorem transition_appendSub (i : Instr) (k : Byte) (x : SubEntry) (s : State) : Transition i s (appendSub k x s).2 := by
  obtain e | ⟨_, _, _, e⟩ := appendSub_eq (s := s) k x
  · exact .kept (by rw [e]) (by rw [e])
  · rw [e]
    exact transition_regInsert ..

theorem transition_regRemove (i : Instr) (k : Byte) (s : State) : Transition i s (regRemove k s).2 := by
  obtain ⟨_, e⟩ | ⟨_, e⟩ := regRemove_cases k s <;> exact .kept (by rw [e]) (by rw [e])

/-! ### The statement -/

/-- Each way in which a command of a live block completes, DELETE apart, is a row of the table. -/
theorem ran_transition {i : Instr} {s u : State} {p : List Byte} (live : s.live = true) (notDelete : i ≠ .delete) (ran : Ran i s p u) :
    Transition i s u := by
  cases ran with
  | report => exact .kept rfl rfl
  | respondNegative => exact .kept (by simp) (by simp)
  | respondPositive => exact .kept (by simp) (by simp)
  | single _ taken kind => exact transition_intakeSingle taken kind
  | first _ taken kind => exact transition_intakeFirst taken kind
  | consecutive _ taken kind hu => exact transition_intakeConsecutive taken kind hu
  | tick => exact .kept rfl rfl
  | dispatch _ idle hu => exact transition_dispatchRequest idle hu
  | serviceReturned _ wait hu => exact transition_serviceReturned wait hu
  | subfunctionReturned _ wait => exact .returned rfl (.inl wait) rfl (by simp [subfunctionReturned])
  | registerService => exact transition_regInsert ..
  | registerSubfunction => exact transition_appendSub ..
  | removeService => exact transition_regRemove ..
  | delete => exact absurd rfl notDelete
  | init off => exact absurd live (by simp [off])

/-- Settles O32: the result packet changes neither field, and each clause is read off the table. -/
theorem reassemblyAndRequestTransitions : Obligations.ReassemblyAndRequestTransitions := by
  intro i s t live notDelete h
  obtain ⟨p, u, ran, rfl⟩ := exec_ran h
  have row := ran_transition live notDelete ran
  exact ⟨row.to_receiving, row.to_complete, row.to_idle, row.to_single, row.to_multi, row.to_none⟩

end Sys2Proof.Machine
end

section
/-! PROOFS. O33: TICK, and no other writer of the tick counter (spec 10_state.md R27, 43_timer_dispatch.md R240). -/

namespace Sys2Proof.Machine

/-! ### The intake of a frame reads the counter and does not write it -/

theorem intakeSingle_tick (f : Frame) (s : State) : (intakeSingle f s).tick = s.tick := by
  obtain ⟨_, e⟩ | ⟨_, e⟩ | ⟨_, _, _, _, e⟩ := intakeSingle_cases f s <;> simp [e]

theorem startReassembly_tick (total : Len12) (p : Bytes6) (s : State) : (startReassembly total p s).tick = s.tick := by
  obtain ⟨_, e⟩ | ⟨_, e⟩ := startReassembly_cases total p s <;> simp [e]

theorem intakeFirst_tick (f : Frame) (s : State) : (intakeFirst f s).tick = s.tick := by
  obtain ⟨_, e⟩ | ⟨_, _, _, ⟨_, e⟩ | ⟨_, e⟩⟩ := intakeFirst_cases f s <;> simp [e, startReassembly_tick]

theorem acceptConsecutive_tick (p : Bytes7) (n : Nat) (s : State) : (acceptConsecutive p n s).tick = s.tick := by
  rw [acceptConsecutive_frame]

theorem intakeConsecutive_tick {f : Frame} {s u : State} (h : intakeConsecutive f s = .ok u) : u.tick = s.tick := by
  obtain rfl | ⟨_, ⟨_, rfl⟩ | ⟨_, _, _, rfl⟩⟩ := intakeConsecutive_cases h
  · rfl
  · simp
  · rw [acceptConsecutive_tick]

/-! ### Nor do the phases of a dispatch -/

theorem subfunctionPhase_tick {s u : State} (h : subfunctionPhase s = .ok u) : u.tick = s.tick := by
  obtain ⟨_, _, ⟨_, rfl⟩ | ⟨_, _, ⟨_, rfl⟩ | ⟨_, rfl⟩⟩⟩ := subfunctionPhase_cases h <;> simp

theorem lookupRequest_tick {s u : State} (h : lookupRequest s = .ok u) : u.tick = s.tick := by
  obtain ⟨_, rfl⟩ | ⟨_, _, ⟨_, rfl⟩ | ⟨_, phase⟩⟩ := lookupRequest_cases h
  · simp
  · simp
  · simp [subfunctionPhase_tick phase]

theorem dispatchRequest_tick {s u : State} (h : dispatchRequest s = .ok u) : u.tick = s.tick := by
  obtain ⟨_, rfl⟩ | ⟨_, _, rfl⟩ | ⟨_, _, lookup⟩ := dispatchRequest_cases h
  · simp
  · simp
  · simp [lookupRequest_tick lookup]

theorem serviceReturned_tick {c : Byte} {s u : State} (h : serviceReturned c s = .ok u) : u.tick = s.tick := by
  simp [subfunctionPhase_tick h]

/-! ### Nor do the registry primitives -/

theorem regInsert_tick (k : Byte) (v : ServiceEntry) (s : State) : (regInsert k v s).2.tick = s.tick := by
  obtain ⟨_, e⟩ | ⟨_, _, e⟩ | ⟨_, _, e⟩ := regInsert_cases k v s <;> rw [e]

theorem appendSub_tick (k : Byte) (x : SubEntry) (s : State) : (appendSub k x s).2.tick = s.tick := by
  obtain e | ⟨_, _, _, e⟩ := appendSub_eq (s := s) k x
  · rw [e]
  · rw [e, regInsert_tick]

theorem regRemove_tick (k : Byte) (s : State) : (regRemove k s).2.tick = s.tick := by
  obtain ⟨_, e⟩ | ⟨_, e⟩ := regRemove_cases k s <;> rw [e]

/-! ### The statement -/

/-- R27, R46: of the ways in which a command of a live block completes, TICK's and DELETE's alone change the counter. -/
theorem ran_tick {i : Instr} {s u : State} {p : List Byte} (live : s.live = true) (notDelete : i ≠ .delete)
    (notTick : ∀ now, i ≠ .tick now) (ran : Ran i s p u) : u.tick = s.tick := by
  cases ran with
  | report => rfl
  | respondNegative => simp
  | respondPositive => simp
  | single => exact intakeSingle_tick ..
  | first => exact intakeFirst_tick ..
  | consecutive _ _ _ hu => exact intakeConsecutive_tick hu
  | tick => exact absurd rfl (notTick _)
  | dispatch _ _ hu => exact dispatchRequest_tick hu
  | serviceReturned _ _ hu => exact serviceReturned_tick hu
  | subfunctionReturned => simp [subfunctionReturned]
  | registerService => exact regInsert_tick ..
  | registerSubfunction => exact appendSub_tick ..
  | removeService => exact regRemove_tick ..
  | delete => exact absurd rfl notDelete
  | init off => exact absurd live (by simp [off])

/-- D14: the successor of a word is the successor of its value modulo 2^32. -/
theorem word_add_one (v : Word) : v + 1 = BitVec.ofNat 32 ((v.toNat + 1) % 2 ^ 32) := by
  apply BitVec.eq_of_toNat_eq
  simp

/-- Settles O33: the packet is appended beside the counter, and `ran_tick` says who writes it. -/
theorem tickAdvancesCounter : Obligations.TickAdvancesCounter := by
  refine ⟨fun now s live => ?_, fun i s t live notDelete notTick h => ?_⟩
  · have admitted : exec (.tick now) s = _ := whenLive_of_live live _
    rw [admitted, ← word_add_one]
    rfl
  · obtain ⟨p, u, ran, rfl⟩ := exec_ran h
    rw [emit_tick, ran_tick live notDelete notTick ran]

end Sys2Proof.Machine
end

section
/-! PROOFS. O34 to O37: the timeouts and the phases of a DISPATCH (spec 43_timer_dispatch.md R241 to R246, R248, R250, R251). One equation per
case of each phase, then the statements by rewriting a DISPATCH from phase to phase. -/

namespace Sys2Proof.Machine

/-! ### The two timeouts -/

/-- R241, R243, with the elapsed ticks as a number. -/
theorem sessionExpired_iff (s : State) :
    sessionExpired s = true ↔ s.cfg.sessionTimeout.toNat ≤ (s.tick.toNat + 2 ^ 32 - s.lastActivity.toNat) % 2 ^ 32 := by
  rw [sessionExpired, elapsed_toNat, decide_eq_true_iff]

theorem ncsExpired_iff (s : State) :
    ncsExpired s = true ↔
      s.ncsActive = true ∧ s.cfg.ncsTimeout.toNat ≤ (s.tick.toNat + 2 ^ 32 - s.ncsMark.toNat) % 2 ^ 32 := by
  rw [ncsExpired, elapsed_toNat, Bool.and_eq_true, decide_eq_true_iff]

/-- R243: the N_Cs test alone aborts the reassembly or does nothing. -/
def ncsTest (s : State) : State := if ncsExpired s then abort s else s

theorem ncsTest_of_expired {s : State} (h : ncsExpired s = true) : ncsTest s = abort s := if_pos h

theorem ncsTest_of_not_expired {s : State} (h : ncsExpired s = false) : ncsTest s = s := if_neg (by simp [h])

/-- R243: an expired session resets the ids beside the N_Cs test. -/
theorem timeouts_of_sessionExpired {s : State} (h : sessionExpired s = true) :
    timeouts s = { ncsTest s with sid := s.cfg.defaultSid, ssid := s.cfg.defaultSsid } := by
  cases expired : ncsExpired s
  · simp [timeouts, h, expired, ncsTest_of_not_expired expired]
  · simp [timeouts, h, expired, ncsTest_of_expired expired, abort]

theorem timeouts_of_not_sessionExpired {s : State} (h : sessionExpired s = false) : timeouts s = ncsTest s := by
  simp [timeouts, h, ncsTest]

/-- R216, R243: the abort stops the timer, so a second N_Cs test finds nothing, and the session test does not read what it writes. -/
theorem timeouts_ncsTest (s : State) : timeouts (ncsTest s) = timeouts s := by
  cases expired : ncsExpired s
  · rw [ncsTest_of_not_expired expired]
  · have stopped : ncsExpired (abort s) = false := rfl
    have session : sessionExpired (abort s) = sessionExpired s := rfl
    rw [ncsTest_of_expired expired]
    cases h : sessionExpired s
    · rw [timeouts_of_none (session.trans h) stopped, timeouts_of_not_sessionExpired h, ncsTest_of_expired expired]
    · rw [timeouts_of_sessionExpired h, timeouts_of_sessionExpired (session.trans h), ncsTest_of_not_expired stopped,
        ncsTest_of_expired expired, abort_cfg]

/-- R242: so a dispatch after the N_Cs test is the dispatch. -/
theorem dispatchRequest_ncsTest (s : State) : dispatchRequest (ncsTest s) = dispatchRequest s := by
  have session : sessionExpired (ncsTest s) = sessionExpired s := by
    cases expired : ncsExpired s
    · rw [ncsTest_of_not_expired expired]
    · rw [ncsTest_of_expired expired]
      rfl
  rw [dispatchRequest, session, timeouts_ncsTest, dispatchRequest]

/-! ### The pending request -/

theorem dispatchRequest_of_sessionExpired {s : State} (h : sessionExpired s = true) : dispatchRequest s = .ok (timeouts s) := if_pos h

theorem dispatchRequest_of_nothing {s : State} (session : sessionExpired s = false) (nothing : s.active = .none) :
    dispatchRequest s = .ok (timeouts s) := by
  simp [dispatchRequest, session, nothing]

theorem dispatchRequest_of_pending {s : State} (session : sessionExpired s = false) (ncs : ncsExpired s = false)
    (pending : s.active ≠ .none) : dispatchRequest s = lookupRequest (takeRequest s) := by
  simp [dispatchRequest, session, timeouts_of_none session ncs, pending]

/-! ### Lookup and the service phase -/

section lookup
variable {s : State}

theorem lookupRequest_of_unregistered (h : regFind s.sid s = none) :
    lookupRequest s = .ok (clearBuffers (transmit (negativeFrame s.sid s.cfg.nrcSns) s).2) := by
  rw [lookupRequest, h, respondNegative_frame]

variable {e : ServiceEntry} (registered : regFind s.sid s = some e)
include registered

theorem lookupRequest_of_handler (h : e.hasHandler = true) :
    lookupRequest s = .ok (callHandler .service e.hid e.param (latchDispatched s)) := by
  rw [lookupRequest, registered]
  exact if_pos h

theorem lookupRequest_of_plain (h : e.hasHandler = false) : lookupRequest s = subfunctionPhase (latchDispatched s) := by
  rw [lookupRequest, registered]
  exact if_neg (by simp [h])

end lookup

/-! ### The sub-function phase -/

section subfunction
variable {s : State} {e : ServiceEntry} (registered : regFind s.dispSid s = some e)
include registered

theorem subfunctionPhase_of_handler {x : SubEntry} (found : findSub s.ssid e.subs = some x) (h : x.hasHandler = true) :
    subfunctionPhase s = .ok (callHandler .subfunction x.hid x.param s) := by
  rw [subfunctionPhase, registered]
  simp only [found, h, if_true]

/-- R251: in the idle state the end of the dispatch clears the buffers and does nothing else. -/
theorem subfunctionPhase_of_plain {x : SubEntry} (idle : s.dispState = .idle) (found : findSub s.ssid e.subs = some x)
    (h : x.hasHandler = false) : subfunctionPhase s = .ok (clearBuffers s) := by
  rw [subfunctionPhase, registered, ← finish_of_idle idle]
  simp only [found, h, Bool.false_eq_true, if_false]

theorem subfunctionPhase_of_unknown (idle : s.dispState = .idle) (h : findSub s.ssid e.subs = none) :
    subfunctionPhase s = .ok (clearBuffers (transmit (negativeFrame s.sid s.cfg.nrcSfns) s).2) := by
  rw [subfunctionPhase, registered, ← finish_of_idle (by simpa using idle), ← respondNegative_frame]
  simp only [h]

end subfunction

/-! ### DISPATCH -/

section dispatch
variable {s : State} (live : s.live = true) (idle : s.dispState = .idle)
include live idle

/-- R331, R332: a live block that waits for no handler admits DISPATCH. -/
theorem exec_dispatch_of_idle : exec .dispatch s = completeOk (dispatchRequest s) := whenIdle_of_idle live idle _

theorem exec_dispatch_of_pending (session : sessionExpired s = false) (ncs : ncsExpired s = false) (pending : s.active ≠ .none) :
    exec .dispatch s = completeOk (lookupRequest (takeRequest s)) := by
  rw [exec_dispatch_of_idle live idle, dispatchRequest_of_pending session ncs pending]

end dispatch

/-- Settles O34: the timeouts are the N_Cs test, with the reset of the ids where the session has expired. -/
theorem dispatchTimeoutsAndNothingPending : Obligations.DispatchTimeoutsAndNothingPending := by
  intro s u live idle hu
  obtain rfl : u = ncsTest s := by simpa only [← ncsExpired_iff, ncsTest] using hu
  refine ⟨fun expired => ?_, fun current nothing => ?_, ?_⟩
  · rw [← sessionExpired_iff] at expired
    rw [exec_dispatch_of_idle live idle, dispatchRequest_of_sessionExpired expired, timeouts_of_sessionExpired expired, completeOk_ok]
  · rw [← not_le, ← sessionExpired_iff, Bool.not_eq_true] at current
    rw [exec_dispatch_of_idle live idle, dispatchRequest_of_nothing current nothing, timeouts_of_not_sessionExpired current, completeOk_ok]
  · have live' : (ncsTest s).live = true := by unfold ncsTest; split <;> exact live
    have idle' : (ncsTest s).dispState = .idle := by unfold ncsTest; split <;> exact idle
    rw [exec_dispatch_of_idle live idle, exec_dispatch_of_idle live' idle', dispatchRequest_ncsTest]

/-- Settles O35: Lookup of the request just taken finds no entry. -/
theorem dispatchUnregisteredService : Obligations.DispatchUnregisteredService := by
  intro s live idle session ncs pending unregistered
  have lookup := lookupRequest_of_unregistered (s := takeRequest s) unregistered
  rw [exec_dispatch_of_pending live idle session ncs pending, lookup]
  rfl

/-- Settles O36: Lookup of the request just taken calls the handler of the entry it finds. -/
theorem dispatchCallsServiceHandler : Obligations.DispatchCallsServiceHandler := by
  intro s e live idle session ncs pending registered handler
  have lookup := lookupRequest_of_handler (s := takeRequest s) registered handler
  rw [exec_dispatch_of_pending live idle session ncs pending, lookup]
  rfl

/-- Settles O37: Lookup hands the entry it found to the sub-function phase. -/
theorem dispatchSubfunctionPhase : Obligations.DispatchSubfunctionPhase := by
  intro s e live idle session ncs pending registered plain
  have phase : exec .dispatch s = completeOk (subfunctionPhase (latchDispatched (takeRequest s))) := by
    rw [exec_dispatch_of_pending live idle session ncs pending]
    exact congrArg completeOk (lookupRequest_of_plain (s := takeRequest s) registered plain)
  have latched : regFind (latchDispatched (takeRequest s)).dispSid (latchDispatched (takeRequest s)) = some e := registered
  refine ⟨fun x found handler => ?_, fun x found noHandler => ?_, fun unknown => ?_⟩
  · rw [phase, subfunctionPhase_of_handler latched found handler]
    rfl
  · rw [phase, subfunctionPhase_of_plain latched idle found noHandler]
    rfl
  · rw [phase, subfunctionPhase_of_unknown latched idle unknown]
    rfl

end Sys2Proof.Machine
end

section
/-! PROOFS. O38, O39: the return of a handler (spec 43_timer_dispatch.md R247 to R249, R251, R252; 44_response.md R282). -/

namespace Sys2Proof.Machine

/-- R282: the response that a handler's code asks for, as transmit attempts. -/
theorem translate_frame (c : Byte) (s : State) :
    translate c s =
      if c = s.cfg.hrSuccess then (transmit (positiveFrame s.sid s.ssid) s).2
      else if c = s.cfg.hrNoResponse then s else (transmit (negativeFrame s.sid c) s).2 := by
  rw [translate, respondPositive_frame, respondNegative_frame]

/-- R247, R252: the service handler's return goes on to the sub-function phase. -/
theorem exec_handlerReturn_of_waitService {s : State} (live : s.live = true) (wait : s.dispState = .waitService) (c : Byte) :
    exec (.handlerReturn c) s = completeOk (subfunctionPhase (endCall (translate c s))) := by
  rw [exec, execHandlerReturn, whenLive_of_live live, wait]
  rfl

/-- R249, R252: the sub-function handler's return ends the dispatch. -/
theorem exec_handlerReturn_of_waitSub {s : State} (live : s.live = true) (wait : s.dispState = .waitSub) (c : Byte) :
    exec (.handlerReturn c) s = .next (emit (.result [0x00]) (clearBuffers (endCall (translate c s)))) := by
  rw [exec, execHandlerReturn, whenLive_of_live live, wait, ← finish_of_idle (endCall_dispState _)]
  rfl

/-- Settles O38: the response changes neither the ids nor the registry, so the phase finds the entry of the service that was called. -/
theorem serviceHandlerReturn : Obligations.ServiceHandlerReturn := by
  intro c s r e live wait registered hr
  obtain rfl : r = translate c s := hr.trans (translate_frame c s).symm
  have phase := exec_handlerReturn_of_waitService live wait c
  have called : regFind (endCall (translate c s)).dispSid (endCall (translate c s)) = some e := by
    rw [regFind_congr (s := s) (by simp)]
    simpa using registered
  have ssid : (endCall (translate c s)).ssid = s.ssid := by simp
  rw [← ssid]
  refine ⟨fun x found handler => ?_, fun x found noHandler => ?_, fun unknown => ?_⟩
  · rw [phase, subfunctionPhase_of_handler called found handler, ← translate_dispSid c s]
    rfl
  · rw [phase, subfunctionPhase_of_plain called rfl found noHandler]
    rfl
  · have frame : negativeFrame (endCall (translate c s)).sid (endCall (translate c s)).cfg.nrcSfns = negativeFrame s.sid s.cfg.nrcSfns := by
      simp
    rw [phase, subfunctionPhase_of_unknown called rfl unknown, frame]
    rfl

/-- Settles O39: the response is the translation of the code, and the end of the call is the two writes of the statement. -/
theorem subfunctionHandlerReturn : Obligations.SubfunctionHandlerReturn := by
  intro c s r live wait hr
  obtain rfl : r = translate c s := hr.trans (translate_frame c s).symm
  rw [exec_handlerReturn_of_waitSub live wait]
  rfl

end Sys2Proof.Machine
end

section
/-! PROOFS. O40, O41: RESPOND_POSITIVE and RESPOND_NEGATIVE (spec 44_response.md R280, R281, R285). Each is the completion of one transmit attempt
of its frame, and the two cases are those of the transmit capability. -/

namespace Sys2Proof.Machine

section attempt
variable {s : State}

/-- R285: without a capability the attempt fails and leaves no event. -/
theorem completeWith_transmit_of_absent (absent : s.cfg.txPresent = false) (f : Frame) :
    completeWith (transmit f s) = .next (emit (.result [0x08]) s) := by
  rw [transmit, if_neg (by simp [absent]), completeWith_eq]
  rfl

/-- R285, R320: the status byte of an answer. -/
theorem code_status_answer (a : TxAnswer) : a.status.code = if a = .ok then 0x00 else 0x08 := by
  cases a <;> rfl

/-- R285: with one, the attempt is recorded with its answer, and the answer gives the status. -/
theorem completeWith_transmit_of_present (present : s.cfg.txPresent = true) (f : Frame) :
    completeWith (transmit f s) =
      .next (emit (.result [if nextAnswer s = .ok then 0x00 else 0x08]) (emit (.tx f (nextAnswer s)) (takeAnswer s))) := by
  rw [transmit, if_pos present, completeWith_eq, code_status_answer]

/-- R285: the oldest answer held is given, and used up. -/
theorem answer_of_cons {a : TxAnswer} {rest : List TxAnswer} (held : s.txAnswers = a :: rest) :
    nextAnswer s = a ∧ takeAnswer s = { s with txAnswers := rest } := by
  simp [nextAnswer, takeAnswer, held]

end attempt

section respond
variable {s : State} (live : s.live = true)
include live

theorem exec_respondPositive_of_live : exec .respondPositive s = completeWith (transmit (positiveFrame s.sid s.ssid) s) := by
  rw [exec, execRespondPositive, whenLive_of_live live, respondPositive_frame]

theorem exec_respondNegative_of_live (code : Byte) :
    exec (.respondNegative code) s = completeWith (transmit (negativeFrame s.sid code) s) := by
  rw [exec, execRespondNegative, whenLive_of_live live, respondNegative_frame]

end respond

/-- Settles O40: the attempt is that of the positive response of the latched ids. -/
theorem respondPositiveResult : Obligations.RespondPositiveResult := by
  intro s live
  rw [exec_respondPositive_of_live live]
  exact ⟨fun absent => completeWith_transmit_of_absent absent _, fun present => completeWith_transmit_of_present present _,
    fun _ _ held => answer_of_cons held⟩

/-- Settles O41: the attempt is that of the negative response with the code as it stands. -/
theorem respondNegativeResult : Obligations.RespondNegativeResult := by
  intro code s live
  rw [exec_respondNegative_of_live live]
  exact ⟨fun absent => completeWith_transmit_of_absent absent _, fun present => completeWith_transmit_of_present present _⟩

end Sys2Proof.Machine
end

section
/-! PROOFS. O42: the ids during a handler call (spec 44_response.md R284). Of the commands that write an id, a busy block turns away the frames that
latch one, and a waiting block does not admit DISPATCH. -/

namespace Sys2Proof.Machine

/-- R284: the latched ids and the dispatched one are as they were. -/
def KeepsIds (s t : State) : Prop := t.sid = s.sid ∧ t.ssid = s.ssid ∧ t.dispSid = s.dispSid

section busy
variable {s : State} (busy : s.busy = true)
include busy

/-- R206: BusyRepeatRequest. -/
theorem keepsIds_intakeSingle (f : Frame) : KeepsIds s (intakeSingle f s) := by
  obtain ⟨_, e⟩ | ⟨_, e⟩ | ⟨free, _⟩ := intakeSingle_cases f s
  · simp [KeepsIds, e]
  · simp [KeepsIds, e]
  · simp [busy] at free

/-- R207, R208: BusyRepeatRequest, after the abort of a running reassembly. -/
theorem keepsIds_intakeFirst (f : Frame) : KeepsIds s (intakeFirst f s) := by
  obtain ⟨_, e⟩ | ⟨_, _, _, ⟨_, e⟩ | ⟨free, _⟩⟩ := intakeFirst_cases f s
  · simp [KeepsIds, e]
  · simp [KeepsIds, e]
  · simp [busy] at free

end busy

/-- R210 to R213: a ConsecutiveFrame latches no id. -/
theorem keepsIds_intakeConsecutive {f : Frame} {s u : State} (h : intakeConsecutive f s = .ok u) : KeepsIds s u := by
  obtain rfl | ⟨_, ⟨_, rfl⟩ | ⟨_, _, _, rfl⟩⟩ := intakeConsecutive_cases h
  · simp [KeepsIds]
  · simp [KeepsIds]
  · rw [acceptConsecutive_frame]
    simp [KeepsIds]

/-- R248, R251: the sub-function phase reads the ids only. -/
theorem keepsIds_subfunctionPhase {s u : State} (h : subfunctionPhase s = .ok u) : KeepsIds s u := by
  obtain ⟨_, _, ⟨_, rfl⟩ | ⟨_, _, ⟨_, rfl⟩ | ⟨_, rfl⟩⟩⟩ := subfunctionPhase_cases h <;> simp [KeepsIds]

/-- R247: the phase is run after the response and the end of the call, neither of which writes an id. -/
theorem keepsIds_serviceReturned {c : Byte} {s u : State} (h : serviceReturned c s = .ok u) : KeepsIds s u := by
  simpa [KeepsIds] using keepsIds_subfunctionPhase h

/-- Each way in which a command completes on a busy block that waits for a handler. -/
theorem ran_keepsIds {i : Instr} {s u : State} {p : List Byte} (live : s.live = true) (busy : s.busy = true) (waits : s.dispState ≠ .idle)
    (ran : Ran i s p u) : KeepsIds s u := by
  cases ran with
  | report => simp [KeepsIds]
  | respondNegative => simp [KeepsIds]
  | respondPositive => simp [KeepsIds]
  | single => exact keepsIds_intakeSingle busy _
  | first => exact keepsIds_intakeFirst busy _
  | consecutive _ _ _ hu => exact keepsIds_intakeConsecutive hu
  | tick => simp [KeepsIds]
  | serviceReturned _ _ hu => exact keepsIds_serviceReturned hu
  | subfunctionReturned => simp [KeepsIds, subfunctionReturned]
  | dispatch _ idle | registerService _ idle | registerSubfunction _ idle | removeService _ idle | delete _ idle => exact absurd idle waits
  | init off => exact absurd live (by simp [off])

/-- Settles O42: the result packet changes no id. -/
theorem idsStableDuringHandlerCall : Obligations.IdsStableDuringHandlerCall := by
  intro i s t live busy waits h
  obtain ⟨p, u, ran, rfl⟩ := exec_ran h
  simpa [KeepsIds] using ran_keepsIds live busy waits ran

end Sys2Proof.Machine
end

section
/-! PROOFS. O44: the answers of the transmit capability (spec 44_response.md R282, R285). They reach the trace, the answers left and the draw counter
alone; no operation of a command but DELETE, which transmits nothing, reads these three to write the rest of the state. -/

namespace Sys2Proof.Machine

/-! ### The engine without its port -/

/-- The state of the engine: the trace, the answers left and the draw counter are blanked out. -/
def engineOf (s : State) : State := { s with trace := [], txAnswers := [], draws := 0 }

theorem sameEngine_iff {s t : State} : SameEngine s t ↔ engineOf t = engineOf s := by
  refine ⟨fun h => ?_, fun h => ?_⟩
  · rw [h]
    rfl
  · exact congrArg (fun u : State => { u with trace := t.trace, txAnswers := t.txAnswers, draws := t.draws }) h

/-- An operation that depends on the engine alone gives the same for two states of one engine. -/
theorem congr_engineOf {α : Sort*} {g : State → α} (reads : ∀ s, g (engineOf s) = g s) {s t : State} (h : engineOf s = engineOf t) :
    g s = g t := by
  rw [← reads s, h, reads]

section
variable (s : State)

@[simp] theorem engineOf_cfg : (engineOf s).cfg = s.cfg := rfl
@[simp] theorem engineOf_live : (engineOf s).live = s.live := rfl
@[simp] theorem engineOf_sid : (engineOf s).sid = s.sid := rfl
@[simp] theorem engineOf_ssid : (engineOf s).ssid = s.ssid := rfl
@[simp] theorem engineOf_active : (engineOf s).active = s.active := rfl
@[simp] theorem engineOf_busy : (engineOf s).busy = s.busy := rfl
@[simp] theorem engineOf_reasmState : (engineOf s).reasmState = s.reasmState := rfl
@[simp] theorem engineOf_reasmRecv : (engineOf s).reasmRecv = s.reasmRecv := rfl
@[simp] theorem engineOf_reasmExpSn : (engineOf s).reasmExpSn = s.reasmExpSn := rfl
@[simp] theorem engineOf_regRemaining : (engineOf s).regRemaining = s.regRemaining := rfl
@[simp] theorem engineOf_dispState : (engineOf s).dispState = s.dispState := rfl
@[simp] theorem engineOf_dispSid : (engineOf s).dispSid = s.dispSid := rfl
@[simp] theorem engineOf_regFind (k : Byte) : regFind k (engineOf s) = regFind k s := rfl
@[simp] theorem engineOf_copyCount : copyCount (engineOf s) = copyCount s := rfl
@[simp] theorem engineOf_sessionExpired : sessionExpired (engineOf s) = sessionExpired s := rfl
@[simp] theorem engineOf_ncsExpired : ncsExpired (engineOf s) = ncsExpired s := rfl
@[simp] theorem engineOf_waiting : waiting (engineOf s) = waiting s := rfl
@[simp] theorem engineOf_engineOf : engineOf (engineOf s) = engineOf s := rfl

/-! ### What writes the port alone -/

@[simp] theorem engineOf_transmit (f : Frame) : engineOf (transmit f s).2 = engineOf s := sameEngine_iff.1 (sameEngine_transmit f s)

@[simp] theorem engineOf_respondPositive : engineOf (respondPositive s).2 = engineOf s := by
  rw [respondPositive_frame, engineOf_transmit]

@[simp] theorem engineOf_respondNegative (c : Byte) : engineOf (respondNegative c s).2 = engineOf s := by
  rw [respondNegative_frame, engineOf_transmit]

/-- R282. -/
@[simp] theorem engineOf_translate (c : Byte) : engineOf (translate c s) = engineOf s := by
  unfold translate
  split
  · exact engineOf_respondPositive s
  · split
    · rfl
    · exact engineOf_respondNegative s c

/-! ### What leaves the port alone -/

@[simp] theorem engineOf_markActivity : engineOf (markActivity s) = markActivity (engineOf s) := rfl
@[simp] theorem engineOf_abort : engineOf (abort s) = abort (engineOf s) := rfl
@[simp] theorem engineOf_latchFirst (total : Len12) (p : Bytes6) : engineOf (latchFirst total p s) = latchFirst total p (engineOf s) := rfl
@[simp] theorem engineOf_startNcs : engineOf (startNcs s) = startNcs (engineOf s) := rfl
@[simp] theorem engineOf_clearBuffers : engineOf (clearBuffers s) = clearBuffers (engineOf s) := rfl
@[simp] theorem engineOf_finish : engineOf (finish s) = finish (engineOf s) := rfl
@[simp] theorem engineOf_endCall : engineOf (endCall s) = endCall (engineOf s) := rfl

@[simp] theorem engineOf_timeouts : engineOf (timeouts s) = timeouts (engineOf s) := by
  unfold timeouts
  rw [engineOf_sessionExpired, engineOf_ncsExpired]
  split <;> split <;> rfl

@[simp] theorem engineOf_acceptConsecutive (p : Bytes7) (n : Nat) :
    engineOf (acceptConsecutive p n s) = acceptConsecutive p n (engineOf s) := by
  dsimp only [acceptConsecutive, engineOf]
  split
  · rfl
  · split <;> rfl

/-! ### Intake: the engine afterwards depends on the engine before alone -/

theorem intakeSingle_engineOf (f : Frame) : engineOf (intakeSingle f (engineOf s)) = engineOf (intakeSingle f s) := by
  unfold intakeSingle
  rw [engineOf_busy]
  split
  · rfl
  · split
    · simp
    · rfl

theorem abortRunning_engineOf : engineOf (abortRunning (engineOf s)) = engineOf (abortRunning s) := by
  unfold abortRunning
  rw [engineOf_reasmState]
  split <;> simp

theorem startReassembly_engineOf (total : Len12) (p : Bytes6) :
    engineOf (startReassembly total p (engineOf s)) = engineOf (startReassembly total p s) := by
  rw [startReassembly_eq, startReassembly_eq, engineOf_cfg]
  split <;> simp

theorem intakeFirst_engineOf (f : Frame) : engineOf (intakeFirst f (engineOf s)) = engineOf (intakeFirst f s) := by
  have aborted := abortRunning_engineOf s
  unfold intakeFirst
  split
  · rfl
  · dsimp only
    rw [abortRunning_busy, abortRunning_busy, engineOf_busy]
    split
    · simpa using aborted
    · exact congr_engineOf (g := fun t => engineOf (startReassembly _ _ t)) (fun t => startReassembly_engineOf t _ _) aborted

theorem intakeConsecutive_engineOf (f : Frame) :
    (intakeConsecutive f (engineOf s)).map engineOf = (intakeConsecutive f s).map engineOf := by
  rw [intakeConsecutive_eq, intakeConsecutive_eq, engineOf_reasmState, engineOf_reasmExpSn, engineOf_copyCount, engineOf_reasmRecv,
    engineOf_cfg]
  split
  · rfl
  · split
    · simp [Except.map]
    · split
      · rfl
      · simp [Except.map]

theorem receive_engineOf (f : Frame) : (receive f (engineOf s)).map engineOf = (receive f s).map engineOf := by
  unfold receive
  split
  · exact congrArg Except.ok (intakeSingle_engineOf s f)
  · exact congrArg Except.ok (intakeFirst_engineOf s f)
  · exact intakeConsecutive_engineOf s f
  · rfl

/-! ### Dispatch -/

theorem subfunctionPhase_engineOf : (subfunctionPhase (engineOf s)).map engineOf = (subfunctionPhase s).map engineOf := by
  simp only [subfunctionPhase, engineOf_regFind, engineOf_dispSid, engineOf_ssid]
  split
  · rfl
  · split
    · simp [Except.map]
    · split <;> rfl

theorem lookupRequest_engineOf : (lookupRequest (engineOf s)).map engineOf = (lookupRequest s).map engineOf := by
  simp only [lookupRequest, servicePhase, engineOf_regFind, engineOf_sid]
  split
  · simp [Except.map]
  · split
    · rfl
    · exact subfunctionPhase_engineOf (latchDispatched s)

theorem dispatchRequest_engineOf : (dispatchRequest (engineOf s)).map engineOf = (dispatchRequest s).map engineOf := by
  simp only [dispatchRequest, ← engineOf_timeouts, engineOf_sessionExpired, engineOf_active]
  split
  · rfl
  · split
    · rfl
    · exact lookupRequest_engineOf (takeRequest (timeouts s))

theorem serviceReturned_engineOf (c : Byte) : (serviceReturned c (engineOf s)).map engineOf = (serviceReturned c s).map engineOf :=
  congr_engineOf (g := fun t => (subfunctionPhase t).map engineOf) subfunctionPhase_engineOf (by simp)

theorem subfunctionReturned_engineOf (c : Byte) : engineOf (subfunctionReturned c (engineOf s)) = engineOf (subfunctionReturned c s) := by
  simp [subfunctionReturned]

/-! ### Registry primitives -/

theorem regInsert_engineOf (k : Byte) (v : ServiceEntry) : engineOf (regInsert k v (engineOf s)).2 = engineOf (regInsert k v s).2 := by
  unfold regInsert
  rw [engineOf_regFind, engineOf_regRemaining]
  split
  · rfl
  · split <;> rfl

theorem appendSub_engineOf (k : Byte) (x : SubEntry) : engineOf (appendSub k x (engineOf s)).2 = engineOf (appendSub k x s).2 := by
  unfold appendSub
  rw [engineOf_regFind, engineOf_cfg]
  split
  · rfl
  · split <;> rfl

theorem regRemove_engineOf (k : Byte) : engineOf (regRemove k (engineOf s)).2 = engineOf (regRemove k s).2 := by
  unfold regRemove
  rw [engineOf_regFind]
  split <;> rfl

/-! ### Completion and admission -/

theorem completeCodec_engineOf (n : Nat) (r : Except Status (List Byte)) :
    mapNext engineOf (completeCodec n r (engineOf s)) = mapNext engineOf (completeCodec n r s) := by
  cases r <;> rfl

/-- R93: the result packet, and so the status of an attempt, is seen in the trace alone. -/
theorem completeWith_engineOf {r r' : Status × State} (h : engineOf r'.2 = engineOf r.2) :
    mapNext engineOf (completeWith r') = mapNext engineOf (completeWith r) := congrArg Host.Outcome.next h

theorem completeOk_engineOf {r r' : Except Fault State} (h : r'.map engineOf = r.map engineOf) :
    mapNext engineOf (completeOk r') = mapNext engineOf (completeOk r) := by
  cases r with
  | ok u =>
    cases r' with
    | ok u' => exact congrArg Host.Outcome.next (Except.ok.inj h)
    | error => cases h
  | error k =>
    cases r' with
    | ok => cases h
    | error k' => exact congrArg Host.Outcome.fault (Except.error.inj h)

theorem whenLive_engineOf {r r' : Result} (h : mapNext engineOf r' = mapNext engineOf r) :
    mapNext engineOf (whenLive (engineOf s) r') = mapNext engineOf (whenLive s r) := by
  unfold whenLive
  rw [engineOf_live]
  split
  · exact h
  · rfl

theorem whenIdle_engineOf {r r' : Result} (h : mapNext engineOf r' = mapNext engineOf r) :
    mapNext engineOf (whenIdle (engineOf s) r') = mapNext engineOf (whenIdle s r) := by
  refine whenLive_engineOf s ?_
  rw [engineOf_waiting]
  split
  · rfl
  · exact h

/-! ### Every command -/

theorem execInit_engineOf : mapNext engineOf (execInit (engineOf s)) = mapNext engineOf (execInit s) := by
  unfold execInit
  rw [engineOf_live, engineOf_cfg]
  split
  · rfl
  · split <;> rfl

theorem execFindService_engineOf (key : Byte) :
    mapNext engineOf (execFindService key (engineOf s)) = mapNext engineOf (execFindService key s) := by
  refine whenLive_engineOf s ?_
  rw [engineOf_regFind]
  split <;> rfl

theorem execReadBuf_engineOf (off : Half) : mapNext engineOf (execReadBuf off (engineOf s)) = mapNext engineOf (execReadBuf off s) := by
  refine whenLive_engineOf s ?_
  rw [engineOf_cfg]
  split <;> rfl

theorem execHandlerReturn_engineOf (c : Byte) :
    mapNext engineOf (execHandlerReturn c (engineOf s)) = mapNext engineOf (execHandlerReturn c s) := by
  refine whenLive_engineOf s ?_
  rw [engineOf_dispState]
  split
  · rfl
  · exact completeOk_engineOf (serviceReturned_engineOf s c)
  · exact completeOk_engineOf (congrArg Except.ok (subfunctionReturned_engineOf s c))

/-- R285: a command other than DELETE reads the engine alone to choose its outcome and to write the engine. -/
theorem exec_engineOf {i : Instr} (notDelete : i ≠ .delete) : mapNext engineOf (exec i (engineOf s)) = mapNext engineOf (exec i s) := by
  cases i with
  | packSf | unpackSf | packFf | unpackFf | packCf | unpackCf | unpackFc => exact completeCodec_engineOf s _ _
  | packFc | reservedOpcode => rfl
  | frameSf => exact whenLive_engineOf s (completeOk_engineOf (congrArg Except.ok (intakeSingle_engineOf s _)))
  | frameFf => exact whenLive_engineOf s (completeOk_engineOf (congrArg Except.ok (intakeFirst_engineOf s _)))
  | frameCf => exact whenLive_engineOf s (completeOk_engineOf (intakeConsecutive_engineOf s _))
  | frameFc | frameReserved | frameReservedHi | tick | readState => exact whenLive_engineOf s rfl
  | registerService => exact whenIdle_engineOf s (completeWith_engineOf (regInsert_engineOf s _ _))
  | registerSubfunction => exact whenIdle_engineOf s (completeWith_engineOf (appendSub_engineOf s _ _))
  | findService key => exact execFindService_engineOf s key
  | removeService => exact whenIdle_engineOf s (completeWith_engineOf (regRemove_engineOf s _))
  | init => exact execInit_engineOf s
  | delete => exact absurd rfl notDelete
  | receiveFrame f => exact whenLive_engineOf s (completeOk_engineOf (receive_engineOf s f))
  | dispatch => exact whenIdle_engineOf s (completeOk_engineOf (dispatchRequest_engineOf s))
  | handlerReturn c => exact execHandlerReturn_engineOf s c
  | readBuf off => exact execReadBuf_engineOf s off
  | respondPositive => exact whenLive_engineOf s (completeWith_engineOf (by simp))
  | respondNegative => exact whenLive_engineOf s (completeWith_engineOf (by simp))

/-! ### Other answers -/

/-- R302: DELETE transmits nothing and reads no answer; its free values are those of the draw counter, which is as it was. -/
theorem delete_withAnswers (l : List TxAnswer) :
    mapNext engineOf (exec .delete { s with txAnswers := l }) = mapNext engineOf (exec .delete s) := by
  have waits : waiting { s with txAnswers := l } = waiting s := rfl
  rw [exec, exec, execDelete, execDelete, whenIdle, whenIdle, whenLive, whenLive, waits]
  split
  · split <;> rfl
  · rfl

/-- R285: with other answers every command ends alike, in a state of the same engine. -/
theorem exec_withAnswers (i : Instr) (l : List TxAnswer) :
    mapNext engineOf (exec i { s with txAnswers := l }) = mapNext engineOf (exec i s) := by
  by_cases h : i = .delete
  · subst h
    exact delete_withAnswers s l
  · exact congr_engineOf (g := fun t => mapNext engineOf (exec i t)) (fun t => exec_engineOf t h) rfl

end

/-! ### Reading off the kind of the outcome -/

section
variable {r : Result}

theorem sameEngine_of_mapNext {t : State} (h : mapNext engineOf r = .next (engineOf t)) : ∃ t', r = .next t' ∧ SameEngine t t' := by
  cases r with
  | next t' => exact ⟨t', rfl, sameEngine_iff.2 (Host.Outcome.next.inj h)⟩
  | fault | refused => cases h

theorem eq_fault_of_mapNext {k : Fault} (h : mapNext engineOf r = .fault k) : r = .fault k := by
  cases r with
  | fault => exact h
  | next | refused => cases h

theorem eq_refused_of_mapNext {q : Refusal} (h : mapNext engineOf r = .refused q) : r = .refused q := by
  cases r with
  | refused => exact h
  | next | fault => cases h

end

/-- Settles O44: the outcome under other answers has the kind of the outcome itself, and its next state is of the same engine. -/
theorem transmitAnswersChangeNoState : Obligations.TransmitAnswersChangeNoState := by
  intro i s l
  have alike := exec_withAnswers s i l
  refine ⟨fun t h => ?_, fun k h => ?_, fun r h => ?_⟩ <;> rw [h] at alike
  · exact sameEngine_of_mapNext alike
  · exact eq_fault_of_mapNext alike
  · exact eq_refused_of_mapNext alike

end Sys2Proof.Machine
end

section
/-! PROOFS. O45 to O48: INIT, DELETE, READ_STATE and READ_BUF (spec 45_lifecycle.md R300 to R304; 10_state.md R46; 60_exceptions.md R331). -/

namespace Sys2Proof.Machine

/-! ### INIT, by the check that selects its outcome -/

section init
variable {s : State}

theorem exec_init_of_live (live : s.live = true) : exec .init s = .fault .alreadyLive := if_pos live

/-- R161, R300: a registry without a bucket cannot be made, and nothing is written. -/
theorem exec_init_of_no_buckets (off : s.live = false) (noBuckets : s.cfg.bucketCount = 0) :
    exec .init s = .next (emit (.result [0x01]) s) := by
  rw [exec, execInit, if_neg (by simp [off]), if_pos noBuckets]
  rfl

theorem exec_init_of_buckets (off : s.live = false) (buckets : s.cfg.bucketCount ≠ 0) :
    exec .init s = .next (emit (.result [0x00]) (initialise s)) := by
  rw [exec, execInit, if_neg (by simp [off]), if_neg buckets]
  rfl

end init

/-- R46, R300: of the state before it INIT keeps the configuration, the bookkeeping and the model's own inputs, and nothing else. -/
theorem initialise_eq_resetWith (s : State) :
    initialise s = { State.resetWith s.cfg with
      fault := s.fault, refused := s.refused, trace := s.trace, input := s.input, txAnswers := s.txAnswers, draws := s.draws } := rfl

/-- Settles O45, check by check. -/
theorem initLeavesResetState : Obligations.InitLeavesResetState := by
  refine fun s => ⟨exec_init_of_live, exec_init_of_no_buckets, fun off buckets => ?_⟩
  rw [exec_init_of_buckets off buckets, initialise_eq_resetWith]

/-! ### DELETE, and the engine it leaves -/

theorem whenLive_of_not_live {s : State} (off : s.live = false) (r : Result) : whenLive s r = .fault .notLive := by
  simp [whenLive, off]

/-- R331: the live check is the first of every engine command but INIT. -/
theorem exec_of_not_live {s : State} {i : Instr} (off : s.live = false) (engine : isEngineCommand i = true) (other : i ≠ .init) :
    exec i s = .fault .notLive := by
  cases i with
  | packSf | unpackSf | packFf | unpackFf | packCf | unpackCf | packFc | unpackFc | reservedOpcode => cases engine
  | init => exact absurd rfl other
  | _ => exact whenLive_of_not_live off _

/-- R302: a live engine that waits for no handler is torn down. -/
theorem exec_delete_of_idle {s : State} (live : s.live = true) (idle : s.dispState = .idle) :
    exec .delete s = .next (emit (.result [0x00]) (tearDown s)) := whenIdle_of_idle live idle _

/-- Settles O46: the engine torn down is not live and keeps its configuration, so `exec_of_not_live` and INIT's own rule apply to it. -/
theorem deleteThenInitIsFresh : Obligations.DeleteThenInitIsFresh := by
  refine fun s live idle => ⟨tearDown s, exec_delete_of_idle live idle, tearDown_live s, tearDown_reg s, tearDown_regChains s,
    tearDown_dispState s, tearDown_cfg s, tearDown_fault s, tearDown_refused s, tearDown_trace s, tearDown_input s,
    tearDown_txAnswers s, fun i => exec_of_not_live (tearDown_live s), fun buckets => ?_⟩
  refine ⟨_, exec_init_of_buckets (tearDown_live s) buckets, ?_⟩
  rw [initialise_eq_resetWith]
  rfl

/-! ### READ_STATE -/

/-- R91: the two bytes of a u16 that holds `n`, the most significant first. -/
theorem bytes16_ofNat (n : Nat) : bytes16 (BitVec.ofNat 16 n) = [BitVec.ofNat 8 (n / 256), BitVec.ofNat 8 n] := by
  have high : (BitVec.ofNat 16 n).extractLsb' 8 8 = BitVec.ofNat 8 (n / 256) := by
    apply BitVec.eq_of_toNat_eq
    rw [BitVec.extractLsb'_toNat, BitVec.toNat_ofNat, BitVec.toNat_ofNat, Nat.shiftRight_eq_div_pow]
    omega
  have low : (BitVec.ofNat 16 n).extractLsb' 0 8 = BitVec.ofNat 8 n := by
    apply BitVec.eq_of_toNat_eq
    rw [BitVec.extractLsb'_toNat, BitVec.toNat_ofNat, BitVec.toNat_ofNat, Nat.shiftRight_zero]
    omega
  rw [bytes16, high, low]

/-- Settles O47: each field narrower than its place in the table is the number it holds, and `bytes16_ofNat` and `bytes32_eq_ofNat` cut
the wider ones into bytes. -/
theorem readStateResult : Obligations.ReadStateResult := by
  intro s act rs ds live hact hrs hds
  have admitted : exec .readState s = .next (emit (.result (0x00 :: stateOutputs s)) s) := whenLive_of_live live _
  rw [admitted, hact, hrs, hds]
  simp only [stateOutputs, ← BitVec.ofNat_toNat, bytes16_ofNat, bytes32_eq_ofNat]
  rfl

/-! ### READ_BUF -/

/-- Settles O48, by whether the offset lies in the buffer. -/
theorem readBufResult : Obligations.ReadBufResult := by
  intro off s live
  have admitted : exec (.readBuf off) s = _ := whenLive_of_live live _
  refine ⟨fun outside => ?_, fun inside => ?_⟩
  · rw [admitted, if_pos outside]
    rfl
  · rw [admitted, if_neg (Nat.not_le.2 inside)]
    rfl

end Sys2Proof.Machine
end

section
/-! PROOFS. O50, O51: what a block admits (spec 43_timer_dispatch.md R252; 60_exceptions.md R330 to R332). `Faulted i k` lists every way in which a
command faults on a live block, as `Ran` lists the ways in which one completes. -/

namespace Sys2Proof.Machine

/-- Settles O50: every engine command but INIT is behind the live check. -/
theorem notLiveFaults : Obligations.NotLiveFaults := fun _ _ => exec_of_not_live

/-! ### The model's own faults (assumption 9) -/

theorem intakeConsecutive_error {f : Frame} {s : State} {k : Fault} (h : intakeConsecutive f s = .error k) : k = .reassemblyRange := by
  rw [intakeConsecutive_eq] at h
  split at h
  · cases h
  · split at h
    · cases h
    · split at h <;> cases h
      rfl

theorem receive_error {f : Frame} {s : State} {k : Fault} (h : receive f s = .error k) : k = .reassemblyRange := by
  unfold receive at h
  split at h
  case h_3 => exact intakeConsecutive_error h
  all_goals cases h

theorem subfunctionPhase_error {s : State} {k : Fault} (h : subfunctionPhase s = .error k) : k = .entryMissing := by
  cases found : regFind s.dispSid s with
  | none =>
    simp only [subfunctionPhase, found] at h
    cases h
    rfl
  | some e =>
    obtain ⟨u, ok⟩ := subfunctionPhase_ok found
    cases ok.symm.trans h

/-! ### Admission -/

theorem completeOk_fault {r : Except Fault State} {k : Fault} (h : completeOk r = .fault k) : r = .error k := by
  cases r with
  | ok u => cases h
  | error k' => rw [Host.Outcome.fault.inj h]

section live
variable {s : State} (live : s.live = true)
include live

/-- R332: the commands that need D_IDLE are turned away while a handler call is outstanding. -/
theorem whenIdle_of_waiting (waits : s.dispState ≠ .idle) (r : Result) : whenIdle s r = .fault .commandDuringDispatch := by
  simp [whenIdle, whenLive_of_live live, waiting, waits]

/-- R332: such a command faults because it is turned away, or of itself. -/
theorem whenIdle_fault {r : Result} {k : Fault} (h : whenIdle s r = .fault k) : k = .commandDuringDispatch ∨ r = .fault k := by
  by_cases idle : s.dispState = .idle
  · exact .inr (by rwa [whenIdle_of_idle live idle] at h)
  · rw [whenIdle_of_waiting live idle] at h
    exact .inl (Host.Outcome.fault.inj h).symm

/-- R332: the commands it names all pass by that admission. -/
theorem exec_of_waiting {i : Instr} (needs : needsIdle i = true) (waits : s.dispState ≠ .idle) :
    exec i s = .fault .commandDuringDispatch := by
  cases i with
  | registerService | registerSubfunction | removeService | delete | dispatch => exact whenIdle_of_waiting live waits _
  | _ => cases needs

/-- R252: there is nothing to return from. -/
theorem exec_handlerReturn_of_idle (idle : s.dispState = .idle) (c : Byte) : exec (.handlerReturn c) s = .fault .noHandlerCall := by
  rw [exec, execHandlerReturn, whenLive_of_live live, idle]

end live

/-! ### Every command -/

/-- R120: a codec command completes in every state. -/
theorem exec_codec_ne_fault {i : Instr} (codec : isCodec i = true) (s : State) (k : Fault) : exec i s ≠ .fault k := by
  obtain ⟨_, completes⟩ := exec_codec codec s
  rw [completes]
  nofun

/-- R330: the ways in which a command faults on a live block. -/
inductive Faulted : Instr → Fault → Prop where
  | alreadyLive : Faulted .init .alreadyLive
  | commandDuringDispatch {i} (needs : needsIdle i = true) : Faulted i .commandDuringDispatch
  | noHandlerCall {c} : Faulted (.handlerReturn c) .noHandlerCall
  | reassemblyRange {i} : Faulted i .reassemblyRange
  | entryMissing {i} : Faulted i .entryMissing

/-- A command that needs D_IDLE and never faults of itself. -/
theorem whenIdle_faulted {i : Instr} {s : State} {r : Result} {k : Fault} (live : s.live = true) (needs : needsIdle i = true)
    (h : whenIdle s r = .fault k) (completes : r ≠ .fault k) : Faulted i k := by
  obtain rfl | fails := whenIdle_fault live h
  · exact .commandDuringDispatch needs
  · exact absurd fails completes

theorem execHandlerReturn_faulted {c : Byte} {s : State} {k : Fault} (live : s.live = true) (h : execHandlerReturn c s = .fault k) :
    Faulted (.handlerReturn c) k := by
  rw [execHandlerReturn, whenLive_of_live live] at h
  split at h
  · cases h
    exact .noHandlerCall
  · obtain rfl := subfunctionPhase_error (completeOk_fault h)
    exact .entryMissing
  · cases h

/-- Every fault on a live block is one of the listed ones. -/
theorem exec_faulted {i : Instr} {s : State} {k : Fault} (live : s.live = true) (h : exec i s = .fault k) : Faulted i k := by
  have admitted : ∀ {r}, whenLive s r = .fault k → r = .fault k := fun h => (whenLive_of_live live _).symm.trans h
  cases i with
  | packSf | unpackSf | packFf | unpackFf | packCf | unpackCf | packFc | unpackFc => exact absurd h (exec_codec_ne_fault rfl s k)
  | frameSf | frameFf | frameFc | frameReserved | frameReservedHi | tick | readState | respondPositive | respondNegative =>
    cases admitted h
  | findService | readBuf =>
    have h := admitted h
    split at h <;> cases h
  | frameCf =>
    obtain rfl := intakeConsecutive_error (completeOk_fault (admitted h))
    exact .reassemblyRange
  | receiveFrame =>
    obtain rfl := receive_error (completeOk_fault (admitted h))
    exact .reassemblyRange
  | registerService | registerSubfunction | removeService | delete => exact whenIdle_faulted live rfl h nofun
  | dispatch =>
    obtain ⟨u, ok⟩ := dispatchRequest_ok s
    exact whenIdle_faulted live rfl h (by rw [ok]; nofun)
  | init =>
    cases (exec_init_of_live live).symm.trans h
    exact .alreadyLive
  | handlerReturn => exact execHandlerReturn_faulted live h
  | reservedOpcode => cases h

/-- Settles O51: the two exclusions are admission's, and what else faults is read off the list. -/
theorem admissionDuringHandlerCall : Obligations.AdmissionDuringHandlerCall := by
  intro i s live
  refine ⟨exec_of_waiting live, fun c idle => exec_handlerReturn_of_idle live idle c, fun admitted h => ?_, fun h => ?_, fun h => ?_,
    fun h => nomatch exec_faulted live h⟩
  · cases exec_faulted live h with
    | commandDuringDispatch needs => cases needs.symm.trans admitted
  · cases exec_faulted live h with
    | noHandlerCall => exact ⟨_, rfl⟩
  · cases exec_faulted live h with
    | alreadyLive => rfl

end Sys2Proof.Machine
end

section
/-! PROOFS. O52: a command whose status is not OK (spec 30_encoding.md R93; 60_exceptions.md R321). Of the ways in which a command completes, only a
plain report, a response and a registry primitive have such a status, and none of them has then written to the engine. -/

namespace Sys2Proof.Machine

/-! ### A registry primitive that fails -/

theorem regInsert_failed {k : Byte} {v : ServiceEntry} {s : State} (failed : (regInsert k v s).1.code ≠ 0x00) : (regInsert k v s).2 = s := by
  obtain ⟨_, e⟩ | ⟨_, _, e⟩ | ⟨_, _, e⟩ := regInsert_cases k v s <;> rw [e] at failed ⊢ <;> exact absurd rfl failed

theorem appendSub_failed {k : Byte} {x : SubEntry} {s : State} (failed : (appendSub k x s).1.code ≠ 0x00) : (appendSub k x s).2 = s := by
  obtain e | ⟨_, _, _, e⟩ := appendSub_eq (s := s) k x
  · exact e
  · rw [e] at failed ⊢
    exact regInsert_failed failed

theorem regRemove_failed {k : Byte} {s : State} (failed : (regRemove k s).1.code ≠ 0x00) : (regRemove k s).2 = s := by
  obtain ⟨_, e⟩ | ⟨_, e⟩ := regRemove_cases k s <;> rw [e] at failed ⊢
  exact absurd rfl failed

/-! ### Every command -/

theorem sameEngine_of_eq {s t : State} (h : t = s) : SameEngine s t := by
  rw [h]
  rfl

/-- Each way in which a command completes, with a status that is not OK. -/
theorem ran_failed {i : Instr} {s u : State} {st : Byte} {outs : List Byte} (ran : Ran i s (st :: outs) u) (failed : st ≠ 0x00) :
    SameEngine s u ∧ ∀ b ∈ outs, b = 0 := by
  cases ran with
  | report zeros => exact ⟨rfl, zeros failed⟩
  | respondNegative => exact ⟨respondNegative_frame _ s ▸ sameEngine_transmit _ s, nofun⟩
  | respondPositive => exact ⟨respondPositive_frame s ▸ sameEngine_transmit _ s, nofun⟩
  | registerService => exact ⟨sameEngine_of_eq (regInsert_failed failed), nofun⟩
  | registerSubfunction => exact ⟨sameEngine_of_eq (appendSub_failed failed), nofun⟩
  | removeService => exact ⟨sameEngine_of_eq (regRemove_failed failed), nofun⟩
  | single | first | consecutive | tick | dispatch | serviceReturned | subfunctionReturned | delete | init => exact absurd rfl failed

/-- Settles O52: the last event of the trace is the result packet, so its first byte is the status the command completed with. -/
theorem failedStatusWritesNothing : Obligations.FailedStatusWritesNothing := by
  intro i s t e st outs h last failed
  obtain ⟨p, u, ran, rfl⟩ := exec_ran h
  obtain ⟨_, packet⟩ := List.append_inj' last rfl
  obtain rfl : p = st :: outs := by simpa using packet
  obtain ⟨same, zeros⟩ := ran_failed ran failed
  exact ⟨sameEngine_emit same _, zeros⟩

end Sys2Proof.Machine
end

section
/-! PROOFS. O54: the handler calls of a command (spec 43_timer_dispatch.md R250, 60_exceptions.md R342). Every operation but `callHandler` leaves the
calls of the trace as they are, and a dispatch or a service handler's return ends in at most one `callHandler`. -/

namespace Sys2Proof.Machine

/-! ### The calls in the trace -/

/-- R97: the event is a handler call. -/
def isCall : Event → Bool
  | .hcall _ _ _ _ _ => true
  | _ => false

/-- R43: the handler calls of the trace, oldest first. -/
def handlerCalls (s : State) : List Event := s.trace.filter isCall

/-- R250: the state in which a call of this kind waits. -/
def waitState : HandlerKind → DispState
  | .service => .waitService
  | .subfunction => .waitSub

/-- R342: one call is made, and it is then outstanding. -/
def CallsOne (s u : State) : Prop :=
  ∃ k sid ssid hid prm, handlerCalls u = handlerCalls s ++ [.hcall k sid ssid hid prm] ∧ u.busy = true ∧ u.dispState = waitState k

theorem handlerCalls_of_trace_eq {s t : State} (h : t.trace = s.trace) : handlerCalls t = handlerCalls s := congrArg (List.filter isCall) h

theorem callsOne_callHandler (k : HandlerKind) (hid : Byte) (prm : Word) (s : State) : CallsOne s (callHandler k hid prm s) :=
  ⟨k, s.dispSid, s.ssid, hid, prm, List.filter_append .., rfl, by cases k <;> rfl⟩

/-- R285: an attempt to transmit is no call. -/
theorem handlerCalls_transmit (f : Frame) (s : State) : handlerCalls (transmit f s).2 = handlerCalls s := by
  obtain ⟨_, e⟩ | ⟨_, e⟩ := transmit_cases f s <;> rw [e]
  simp [handlerCalls, isCall]

theorem handlerCalls_respondNegative (c : Byte) (s : State) : handlerCalls (respondNegative c s).2 = handlerCalls s := by
  rw [respondNegative_frame, handlerCalls_transmit]

theorem handlerCalls_respondPositive (s : State) : handlerCalls (respondPositive s).2 = handlerCalls s := by
  rw [respondPositive_frame, handlerCalls_transmit]

theorem handlerCalls_translate (c : Byte) (s : State) : handlerCalls (translate c s) = handlerCalls s := by
  rw [translate_frame]
  split
  · exact handlerCalls_transmit ..
  · split
    · rfl
    · exact handlerCalls_transmit ..

/-! ### Intake calls no handler -/

theorem handlerCalls_intakeSingle (f : Frame) (s : State) : handlerCalls (intakeSingle f s) = handlerCalls s := by
  obtain ⟨_, e⟩ | ⟨_, e⟩ | ⟨_, _, _, _, e⟩ := intakeSingle_cases f s <;> rw [e]
  · exact handlerCalls_respondNegative ..
  · rfl

theorem handlerCalls_abortRunning (s : State) : handlerCalls (abortRunning s) = handlerCalls s := by
  unfold abortRunning
  split
  · exact handlerCalls_respondNegative ..
  · rfl

theorem handlerCalls_startReassembly (total : Len12) (p : Bytes6) (s : State) :
    handlerCalls (startReassembly total p s) = handlerCalls s := by
  obtain ⟨_, e⟩ | ⟨_, e⟩ := startReassembly_cases total p s <;> rw [e]
  · exact handlerCalls_respondNegative _ { s with lastActivity := s.tick }
  · exact handlerCalls_transmit _ (latchFirst total p { s with lastActivity := s.tick })

theorem handlerCalls_intakeFirst (f : Frame) (s : State) : handlerCalls (intakeFirst f s) = handlerCalls s := by
  obtain ⟨_, e⟩ | ⟨_, _, _, ⟨_, e⟩ | ⟨_, e⟩⟩ := intakeFirst_cases f s <;> rw [e]
  · rw [handlerCalls_respondNegative, handlerCalls_abortRunning]
  · rw [handlerCalls_startReassembly, handlerCalls_abortRunning]

theorem handlerCalls_intakeConsecutive {f : Frame} {s u : State} (h : intakeConsecutive f s = .ok u) : handlerCalls u = handlerCalls s := by
  obtain rfl | ⟨_, ⟨_, rfl⟩ | ⟨_, _, _, rfl⟩⟩ := intakeConsecutive_cases h
  · rfl
  · exact handlerCalls_respondNegative _ (abort { s with lastActivity := s.tick })
  · exact handlerCalls_of_trace_eq (acceptConsecutive_trace ..)

/-! ### Dispatch calls at most one -/

/-- R248. -/
theorem subfunctionPhase_calls {s u : State} (h : subfunctionPhase s = .ok u) : handlerCalls u = handlerCalls s ∨ CallsOne s u := by
  obtain ⟨_, _, ⟨_, rfl⟩ | ⟨_, _, ⟨_, rfl⟩ | ⟨_, rfl⟩⟩⟩ := subfunctionPhase_cases h
  · exact .inl (handlerCalls_respondNegative ..)
  · exact .inr (callsOne_callHandler ..)
  · exact .inl rfl

/-- R245, R246: where the service handler is called, the sub-function phase does not run. -/
theorem lookupRequest_calls {s u : State} (h : lookupRequest s = .ok u) : handlerCalls u = handlerCalls s ∨ CallsOne s u := by
  obtain ⟨_, rfl⟩ | ⟨_, _, ⟨_, rfl⟩ | ⟨_, phase⟩⟩ := lookupRequest_cases h
  · exact .inl (handlerCalls_respondNegative ..)
  · exact .inr (callsOne_callHandler _ _ _ (latchDispatched s))
  · exact subfunctionPhase_calls (s := latchDispatched s) phase

theorem dispatchRequest_calls {s u : State} (h : dispatchRequest s = .ok u) : handlerCalls u = handlerCalls s ∨ CallsOne s u := by
  have timed : handlerCalls (timeouts s) = handlerCalls s := handlerCalls_of_trace_eq (timeouts_trace s)
  obtain ⟨_, rfl⟩ | ⟨_, _, rfl⟩ | ⟨_, _, lookup⟩ := dispatchRequest_cases h
  · exact .inl timed
  · exact .inl timed
  · have taken : handlerCalls (takeRequest (timeouts s)) = handlerCalls s := timed
    simpa only [CallsOne, taken] using lookupRequest_calls lookup

/-- R247: the response to the handler's code and the end of its call make no call. -/
theorem serviceReturned_calls {c : Byte} {s u : State} (h : serviceReturned c s = .ok u) : handlerCalls u = handlerCalls s ∨ CallsOne s u := by
  have ended : handlerCalls (endCall (translate c s)) = handlerCalls s := handlerCalls_translate c s
  simpa only [CallsOne, ended] using subfunctionPhase_calls h

/-! ### Every command -/

/-- R342: the two ways to a handler call. -/
def MayCall (i : Instr) (s : State) : Prop :=
  (i = .dispatch ∧ s.dispState = .idle) ∨ ((∃ c, i = .handlerReturn c) ∧ s.dispState = .waitService)

/-- Each way in which a command completes. -/
theorem ran_calls {i : Instr} {s u : State} {p : List Byte} (ran : Ran i s p u) :
    handlerCalls u = handlerCalls s ∨ (MayCall i s ∧ CallsOne s u) := by
  cases ran with
  | report | tick => exact .inl rfl
  | respondNegative => exact .inl (handlerCalls_respondNegative ..)
  | respondPositive => exact .inl (handlerCalls_respondPositive s)
  | single => exact .inl (handlerCalls_intakeSingle ..)
  | first => exact .inl (handlerCalls_intakeFirst ..)
  | consecutive _ _ _ hu => exact .inl (handlerCalls_intakeConsecutive hu)
  | dispatch _ idle hu => exact (dispatchRequest_calls hu).imp_right fun one => ⟨.inl ⟨rfl, idle⟩, one⟩
  | serviceReturned _ wait hu => exact (serviceReturned_calls hu).imp_right fun one => ⟨.inr ⟨⟨_, rfl⟩, wait⟩, one⟩
  | subfunctionReturned => exact .inl (handlerCalls_translate ..)
  | registerService => exact .inl (handlerCalls_of_trace_eq (regInsert_trace ..))
  | registerSubfunction => exact .inl (handlerCalls_of_trace_eq (appendSub_trace ..))
  | removeService => exact .inl (handlerCalls_of_trace_eq (regRemove_trace ..))
  | delete => exact .inl (handlerCalls_of_trace_eq (tearDown_trace s))
  | init => exact .inl (handlerCalls_of_trace_eq (initialise_trace s))

/-- Settles O54: the calls among the new events are none or the one that is then outstanding. -/
theorem handlerCallsNeverNest : Obligations.HandlerCallsNeverNest := by
  intro i s t new h grown k sid ssid hid prm called
  obtain ⟨p, u, ran, rfl⟩ := exec_ran h
  have calls : handlerCalls u = handlerCalls s ++ new.filter isCall := by
    simpa [handlerCalls, isCall] using congrArg (List.filter isCall) grown
  have among : Event.hcall k sid ssid hid prm ∈ new.filter isCall := List.mem_filter.2 ⟨called, rfl⟩
  obtain quiet | ⟨may, _, _, _, _, _, one, busy, wait⟩ := ran_calls ran
  · have empty : new.filter isCall = [] := List.append_right_eq_self.1 (calls.symm.trans quiet)
    rw [empty] at among
    cases among
  · have only := List.append_cancel_left (calls.symm.trans one)
    cases List.mem_singleton.1 (only ▸ among)
    exact ⟨may, busy, wait.trans (by cases k <;> rfl), congrArg List.length only⟩

end Sys2Proof.Machine
end
